-- ==== Sys2Proof/Word.lean ====
section
/-! DEFINITION. The two word widths of the machine (00_scope.md R5, R6): bytes of 8 bits, addresses of 16 bits.
All arithmetic on them wraps (R7). -/

namespace Sys2Proof

/-- A byte: the width of A, X, Y, S, P and of a memory cell (00_scope.md R5). -/
abbrev Byte := BitVec 8

/-- A 16-bit address: the width of PC and of the address space (00_scope.md R5). -/
abbrev Addr := BitVec 16

end Sys2Proof
end

