-- ==== Sys2Proof/Syntax.lean ====
section
/-! DEFINITION. The instructions (30_encoding.md R87, spec/opcode_table.json): one constructor for each of the 151 rows
of the opcode table, its name the mnemonic and the addressing mode. Its argument is the operand as the format
carries it: `v` an immediate byte, `b` a zero-page byte, `d` a signed displacement byte, `w` a 16-bit address. -/

namespace Sys2Proof

/-- An instruction: one constructor per row of spec/opcode_table.json. -/
inductive Instr where
  -- Loads and stores (42_load_store.md)
  | ldaImm (v : Byte)
  | ldaZp (b : Byte)
  | ldaZpx (b : Byte)
  | ldaAbs (w : Addr)
  | ldaAbsx (w : Addr)
  | ldaAbsy (w : Addr)
  | ldaIndx (b : Byte)
  | ldaIndy (b : Byte)
  | ldxImm (v : Byte)
  | ldxZp (b : Byte)
  | ldxZpy (b : Byte)
  | ldxAbs (w : Addr)
  | ldxAbsy (w : Addr)
  | ldyImm (v : Byte)
  | ldyZp (b : Byte)
  | ldyZpx (b : Byte)
  | ldyAbs (w : Addr)
  | ldyAbsx (w : Addr)
  | staZp (b : Byte)
  | staZpx (b : Byte)
  | staAbs (w : Addr)
  | staAbsx (w : Addr)
  | staAbsy (w : Addr)
  | staIndx (b : Byte)
  | staIndy (b : Byte)
  | stxZp (b : Byte)
  | stxZpy (b : Byte)
  | stxAbs (w : Addr)
  | styZp (b : Byte)
  | styZpx (b : Byte)
  | styAbs (w : Addr)
  -- Transfers and stack (43_transfer_stack.md)
  | tax
  | tay
  | txa
  | tya
  | tsx
  | txs
  | pha
  | php
  | pla
  | plp
  -- Arithmetic, compare, increment and decrement (44_arithmetic.md)
  | adcImm (v : Byte)
  | adcZp (b : Byte)
  | adcZpx (b : Byte)
  | adcAbs (w : Addr)
  | adcAbsx (w : Addr)
  | adcAbsy (w : Addr)
  | adcIndx (b : Byte)
  | adcIndy (b : Byte)
  | sbcImm (v : Byte)
  | sbcZp (b : Byte)
  | sbcZpx (b : Byte)
  | sbcAbs (w : Addr)
  | sbcAbsx (w : Addr)
  | sbcAbsy (w : Addr)
  | sbcIndx (b : Byte)
  | sbcIndy (b : Byte)
  | cmpImm (v : Byte)
  | cmpZp (b : Byte)
  | cmpZpx (b : Byte)
  | cmpAbs (w : Addr)
  | cmpAbsx (w : Addr)
  | cmpAbsy (w : Addr)
  | cmpIndx (b : Byte)
  | cmpIndy (b : Byte)
  | cpxImm (v : Byte)
  | cpxZp (b : Byte)
  | cpxAbs (w : Addr)
  | cpyImm (v : Byte)
  | cpyZp (b : Byte)
  | cpyAbs (w : Addr)
  | incZp (b : Byte)
  | incZpx (b : Byte)
  | incAbs (w : Addr)
  | incAbsx (w : Addr)
  | decZp (b : Byte)
  | decZpx (b : Byte)
  | decAbs (w : Addr)
  | decAbsx (w : Addr)
  | inx
  | iny
  | dex
  | dey
  -- Logic, bit test, shifts and rotates (45_logic_shift.md)
  | andImm (v : Byte)
  | andZp (b : Byte)
  | andZpx (b : Byte)
  | andAbs (w : Addr)
  | andAbsx (w : Addr)
  | andAbsy (w : Addr)
  | andIndx (b : Byte)
  | andIndy (b : Byte)
  | oraImm (v : Byte)
  | oraZp (b : Byte)
  | oraZpx (b : Byte)
  | oraAbs (w : Addr)
  | oraAbsx (w : Addr)
  | oraAbsy (w : Addr)
  | oraIndx (b : Byte)
  | oraIndy (b : Byte)
  | eorImm (v : Byte)
  | eorZp (b : Byte)
  | eorZpx (b : Byte)
  | eorAbs (w : Addr)
  | eorAbsx (w : Addr)
  | eorAbsy (w : Addr)
  | eorIndx (b : Byte)
  | eorIndy (b : Byte)
  | bitZp (b : Byte)
  | bitAbs (w : Addr)
  | aslAcc
  | aslZp (b : Byte)
  | aslZpx (b : Byte)
  | aslAbs (w : Addr)
  | aslAbsx (w : Addr)
  | lsrAcc
  | lsrZp (b : Byte)
  | lsrZpx (b : Byte)
  | lsrAbs (w : Addr)
  | lsrAbsx (w : Addr)
  | rolAcc
  | rolZp (b : Byte)
  | rolZpx (b : Byte)
  | rolAbs (w : Addr)
  | rolAbsx (w : Addr)
  | rorAcc
  | rorZp (b : Byte)
  | rorZpx (b : Byte)
  | rorAbs (w : Addr)
  | rorAbsx (w : Addr)
  -- Jumps, calls, returns and branches (46_control_flow.md)
  | jmpAbs (w : Addr)
  | jmpInd (w : Addr)
  | jsr (w : Addr)
  | rts
  | bcc (d : Byte)
  | bcs (d : Byte)
  | beq (d : Byte)
  | bne (d : Byte)
  | bmi (d : Byte)
  | bpl (d : Byte)
  | bvc (d : Byte)
  | bvs (d : Byte)
  -- Flag instructions, NOP, BRK and RTI (47_flag_system.md)
  | clc
  | sec
  | cli
  | sei
  | cld
  | sed
  | clv
  | nop
  | brk
  | rti
  deriving DecidableEq, Repr

end Sys2Proof
end

