-- ==== Sys2Proof/WellFormed.lean ====
section
/-! DEFINITION. The vocabulary of the instruction descriptor (30_encoding.md R86) and the check that a descriptor is
well formed. Every value of an operand byte is legal in every format (R89) and the operands of `Instr` have the
format's own widths, so an instruction term has nothing left to check but its descriptor (log 13). -/

namespace Sys2Proof

/-- The thirteen addressing modes (30_encoding.md R81, 41_addressing_modes.md R120). -/
inductive Mode where
  | imp | acc | imm | zp | zpx | zpy | abs | absx | absy | ind | indx | indy | rel
  deriving DecidableEq, Repr

/-- The 56 mnemonics (30_encoding.md R87). -/
inductive Mnemonic where
  | lda | ldx | ldy | sta | stx | sty
  | tax | tay | txa | tya | tsx | txs | pha | php | pla | plp
  | adc | sbc | cmp | cpx | cpy | inc | dec | inx | iny | dex | dey
  | and | ora | eor | bit | asl | lsr | rol | ror
  | jmp | jsr | rts | bcc | bcs | beq | bne | bmi | bpl | bvc | bvs
  | clc | sec | cli | sei | cld | sed | clv | nop | brk | rti
  deriving DecidableEq, Repr

/-- What a handler receives from the resolver (41_addressing_modes.md R134). -/
inductive AccessKind where
  | value | address | rmw | branch | none
  deriving DecidableEq, Repr

/-- The instruction descriptor (30_encoding.md R86, R13): one for each legal opcode.
`baseCycles` is timing that no rule depends on (70_reset_and_hazards.md R280). -/
structure Descriptor where
  opcode : Byte
  mnemonic : Mnemonic
  mode : Mode
  baseCycles : Nat
  deriving DecidableEq, Repr

/-- An operand that names a memory cell by one of the eight data modes (41_addressing_modes.md R124 to R131). -/
inductive MemOperand where
  | zp (b : Byte)
  | zpx (b : Byte)
  | zpy (b : Byte)
  | abs (w : Addr)
  | absx (w : Addr)
  | absy (w : Addr)
  | indx (b : Byte)
  | indy (b : Byte)
  deriving DecidableEq, Repr

/-- An operand of any mode, with the operand bytes its format carries (30_encoding.md R82 to R84). -/
inductive Operand where
  | implied
  | accumulator
  | immediate (v : Byte)
  | mem (o : MemOperand)
  | indirect (w : Addr)
  | relative (d : Byte)
  deriving DecidableEq, Repr

/-- The access kind of each mnemonic (41_addressing_modes.md R134, the table). -/
def Mnemonic.kind : Mnemonic → AccessKind
  | .lda | .ldx | .ldy | .adc | .sbc | .cmp | .cpx | .cpy | .and | .ora | .eor | .bit => .value
  | .sta | .stx | .sty | .jmp | .jsr => .address
  | .inc | .dec | .asl | .lsr | .rol | .ror => .rmw
  | .bcc | .bcs | .beq | .bne | .bmi | .bpl | .bvc | .bvs => .branch
  | .tax | .tay | .txa | .tya | .tsx | .txs | .pha | .php | .pla | .plp | .inx | .iny | .dex | .dey | .rts | .clc | .sec | .cli | .sei | .cld | .sed | .clv | .nop | .brk | .rti => .none

/-- The length of an instruction by its mode (30_encoding.md R81). -/
def Mode.length : Mode → Nat
  | .imp | .acc => 1
  | .imm | .zp | .zpx | .zpy | .indx | .indy | .rel => 2
  | .abs | .absx | .absy | .ind => 3

/-- Check 1, the mode fits the access kind: Immediate only with `value` handlers (41_addressing_modes.md R123),
Relative with branches and with nothing else (R132), Accumulator only with `rmw` (R122), Indirect only with
`address` (R133), Implied with `none` handlers and with nothing else (R134); no `value` handler is Indirect. -/
def modeFitsKind : AccessKind → Mode → Bool
  | .value, m => m ∈ [Mode.imm, .zp, .zpx, .zpy, .abs, .absx, .absy, .indx, .indy]
  | .address, m => m ∈ [Mode.zp, .zpx, .zpy, .abs, .absx, .absy, .ind, .indx, .indy]
  | .rmw, m => m ∈ [Mode.acc, .zp, .zpx, .abs, .absx]
  | .branch, m => m = .rel
  | .none, m => m = .imp

/-- Check 2, the restricted modes: ZeroPageY only in LDX and STX (41_addressing_modes.md R126), Indirect only in JMP
(R133), Accumulator only in the four shifts (R122). -/
def modeFitsMnemonic (n : Mnemonic) : Mode → Bool
  | .zpy => n ∈ [Mnemonic.ldx, .stx]
  | .ind => n = .jmp
  | .acc => n ∈ [Mnemonic.asl, .lsr, .rol, .ror]
  | .imp | .imm | .zp | .zpx | .abs | .absx | .absy | .indx | .indy | .rel => true

/-- A well-formed descriptor. -/
def Descriptor.wellFormed (d : Descriptor) : Bool :=
  modeFitsKind d.mnemonic.kind d.mode && modeFitsMnemonic d.mnemonic d.mode

/-- A well-formed opcode table: every row is well formed, and no byte value has two rows
("exactly one descriptor per legal opcode value", 30_encoding.md R86). -/
def tableWellFormed (rows : List Descriptor) : Bool :=
  rows.all Descriptor.wellFormed && decide (rows.Pairwise fun c d => c.opcode ≠ d.opcode)

end Sys2Proof
end

