-- ==== Sys2Proof/Decode.lean ====
section
/-! DEFINITION. The opcode map (30_encoding.md R87) three times over, each from the instruction's side it is read from:
`opcodeTable` (byte to instruction, the decoder's lookup), `Instr.descriptor` (instruction to opcode, mnemonic, mode
and base cycles) and `Instr.operand` (instruction to operand). Then the decoder, total on any bytes, and the
encoder. -/

namespace Sys2Proof

/-- The high byte of an address (00_scope.md R6). -/
def hi8 (w : Addr) : Byte := w.extractLsb' 8 8

/-- The low byte of an address (00_scope.md R6). -/
def lo8 (w : Addr) : Byte := w.extractLsb' 0 8

/-- The concatenation of two bytes, `h` in the high bits (00_scope.md R6). -/
def word16 (h l : Byte) : Addr := h ++ l

/-- The instructions of one opcode byte: the constructor, waiting for the operand bytes of its format
(30_encoding.md R80: F1, F2, F3). -/
inductive Form where
  | f1 (i : Instr)
  | f2 (f : Byte → Instr)
  | f3 (f : Addr → Instr)

/-- The number of bytes of a format (30_encoding.md R80). -/
def Form.length : Form → Nat
  | .f1 _ => 1
  | .f2 _ => 2
  | .f3 _ => 3

/-- The instruction of a format with the operand bytes `b1` and `b2`; F3 operands are little-endian
(30_encoding.md R83). A shorter format has no use for the later byte. -/
def Form.build (b1 b2 : Byte) : Form → Instr
  | .f1 i => i
  | .f2 f => f b1
  | .f3 f => f (word16 b2 b1)

/-- 30_encoding.md R87: Loads and stores (42_load_store.md). -/
def opcodesLoadStore : List (Byte × Form) :=
  [(0xA9, .f2 .ldaImm), (0xA5, .f2 .ldaZp), (0xB5, .f2 .ldaZpx), (0xAD, .f3 .ldaAbs),
   (0xBD, .f3 .ldaAbsx), (0xB9, .f3 .ldaAbsy), (0xA1, .f2 .ldaIndx), (0xB1, .f2 .ldaIndy),
   (0xA2, .f2 .ldxImm), (0xA6, .f2 .ldxZp), (0xB6, .f2 .ldxZpy), (0xAE, .f3 .ldxAbs),
   (0xBE, .f3 .ldxAbsy),
   (0xA0, .f2 .ldyImm), (0xA4, .f2 .ldyZp), (0xB4, .f2 .ldyZpx), (0xAC, .f3 .ldyAbs),
   (0xBC, .f3 .ldyAbsx),
   (0x85, .f2 .staZp), (0x95, .f2 .staZpx), (0x8D, .f3 .staAbs), (0x9D, .f3 .staAbsx),
   (0x99, .f3 .staAbsy), (0x81, .f2 .staIndx), (0x91, .f2 .staIndy),
   (0x86, .f2 .stxZp), (0x96, .f2 .stxZpy), (0x8E, .f3 .stxAbs),
   (0x84, .f2 .styZp), (0x94, .f2 .styZpx), (0x8C, .f3 .styAbs)]

/-- 30_encoding.md R87: Transfers and stack (43_transfer_stack.md). -/
def opcodesTransferStack : List (Byte × Form) :=
  [(0xAA, .f1 .tax),
   (0xA8, .f1 .tay),
   (0x8A, .f1 .txa),
   (0x98, .f1 .tya),
   (0xBA, .f1 .tsx),
   (0x9A, .f1 .txs),
   (0x48, .f1 .pha),
   (0x08, .f1 .php),
   (0x68, .f1 .pla),
   (0x28, .f1 .plp)]

/-- 30_encoding.md R87: Arithmetic, compare, increment and decrement (44_arithmetic.md). -/
def opcodesArithmetic : List (Byte × Form) :=
  [(0x69, .f2 .adcImm), (0x65, .f2 .adcZp), (0x75, .f2 .adcZpx), (0x6D, .f3 .adcAbs),
   (0x7D, .f3 .adcAbsx), (0x79, .f3 .adcAbsy), (0x61, .f2 .adcIndx), (0x71, .f2 .adcIndy),
   (0xE9, .f2 .sbcImm), (0xE5, .f2 .sbcZp), (0xF5, .f2 .sbcZpx), (0xED, .f3 .sbcAbs),
   (0xFD, .f3 .sbcAbsx), (0xF9, .f3 .sbcAbsy), (0xE1, .f2 .sbcIndx), (0xF1, .f2 .sbcIndy),
   (0xC9, .f2 .cmpImm), (0xC5, .f2 .cmpZp), (0xD5, .f2 .cmpZpx), (0xCD, .f3 .cmpAbs),
   (0xDD, .f3 .cmpAbsx), (0xD9, .f3 .cmpAbsy), (0xC1, .f2 .cmpIndx), (0xD1, .f2 .cmpIndy),
   (0xE0, .f2 .cpxImm), (0xE4, .f2 .cpxZp), (0xEC, .f3 .cpxAbs),
   (0xC0, .f2 .cpyImm), (0xC4, .f2 .cpyZp), (0xCC, .f3 .cpyAbs),
   (0xE6, .f2 .incZp), (0xF6, .f2 .incZpx), (0xEE, .f3 .incAbs), (0xFE, .f3 .incAbsx),
   (0xC6, .f2 .decZp), (0xD6, .f2 .decZpx), (0xCE, .f3 .decAbs), (0xDE, .f3 .decAbsx),
   (0xE8, .f1 .inx),
   (0xC8, .f1 .iny),
   (0xCA, .f1 .dex),
   (0x88, .f1 .dey)]

/-- 30_encoding.md R87: Logic, bit test, shifts and rotates (45_logic_shift.md). -/
def opcodesLogicShift : List (Byte × Form) :=
  [(0x29, .f2 .andImm), (0x25, .f2 .andZp), (0x35, .f2 .andZpx), (0x2D, .f3 .andAbs),
   (0x3D, .f3 .andAbsx), (0x39, .f3 .andAbsy), (0x21, .f2 .andIndx), (0x31, .f2 .andIndy),
   (0x09, .f2 .oraImm), (0x05, .f2 .oraZp), (0x15, .f2 .oraZpx), (0x0D, .f3 .oraAbs),
   (0x1D, .f3 .oraAbsx), (0x19, .f3 .oraAbsy), (0x01, .f2 .oraIndx), (0x11, .f2 .oraIndy),
   (0x49, .f2 .eorImm), (0x45, .f2 .eorZp), (0x55, .f2 .eorZpx), (0x4D, .f3 .eorAbs),
   (0x5D, .f3 .eorAbsx), (0x59, .f3 .eorAbsy), (0x41, .f2 .eorIndx), (0x51, .f2 .eorIndy),
   (0x24, .f2 .bitZp), (0x2C, .f3 .bitAbs),
   (0x0A, .f1 .aslAcc), (0x06, .f2 .aslZp), (0x16, .f2 .aslZpx), (0x0E, .f3 .aslAbs),
   (0x1E, .f3 .aslAbsx),
   (0x4A, .f1 .lsrAcc), (0x46, .f2 .lsrZp), (0x56, .f2 .lsrZpx), (0x4E, .f3 .lsrAbs),
   (0x5E, .f3 .lsrAbsx),
   (0x2A, .f1 .rolAcc), (0x26, .f2 .rolZp), (0x36, .f2 .rolZpx), (0x2E, .f3 .rolAbs),
   (0x3E, .f3 .rolAbsx),
   (0x6A, .f1 .rorAcc), (0x66, .f2 .rorZp), (0x76, .f2 .rorZpx), (0x6E, .f3 .rorAbs),
   (0x7E, .f3 .rorAbsx)]

/-- 30_encoding.md R87: Jumps, calls, returns and branches (46_control_flow.md). -/
def opcodesControlFlow : List (Byte × Form) :=
  [(0x4C, .f3 .jmpAbs), (0x6C, .f3 .jmpInd),
   (0x20, .f3 .jsr),
   (0x60, .f1 .rts),
   (0x90, .f2 .bcc),
   (0xB0, .f2 .bcs),
   (0xF0, .f2 .beq),
   (0xD0, .f2 .bne),
   (0x30, .f2 .bmi),
   (0x10, .f2 .bpl),
   (0x50, .f2 .bvc),
   (0x70, .f2 .bvs)]

/-- 30_encoding.md R87: Flag instructions, NOP, BRK and RTI (47_flag_system.md). -/
def opcodesFlagSystem : List (Byte × Form) :=
  [(0x18, .f1 .clc),
   (0x38, .f1 .sec),
   (0x58, .f1 .cli),
   (0x78, .f1 .sei),
   (0xD8, .f1 .cld),
   (0xF8, .f1 .sed),
   (0xB8, .f1 .clv),
   (0xEA, .f1 .nop),
   (0x00, .f1 .brk),
   (0x40, .f1 .rti)]

/-- The opcode table: the 151 legal bytes (30_encoding.md R87). -/
def opcodeTable : List (Byte × Form) :=
  opcodesLoadStore ++ opcodesTransferStack ++ opcodesArithmetic ++ opcodesLogicShift ++ opcodesControlFlow ++ opcodesFlagSystem

/-- The row of an opcode byte in a list of rows. -/
def findForm (op : Byte) : List (Byte × Form) → Option Form
  | [] => none
  | (k, f) :: rest => if k = op then some f else findForm op rest

/-- The table lookup of 40_execution_engine.md R101: none for the 105 illegal bytes (30_encoding.md R88). -/
def opcodeForm (op : Byte) : Option Form := findForm op opcodeTable

/-- Why bytes are no instruction: the opcode byte is illegal (30_encoding.md R88), or the bytes end too early
(a list of bytes can; memory, which wraps, cannot). -/
inductive DecodeError where
  | noBytes
  | unimplementedOpcode (opcode : Byte)
  | missingOperandBytes (opcode : Byte)
  deriving DecidableEq, Repr

/-- What a decoder answers: the instruction and the bytes after it, or why there is none. -/
inductive Decoded where
  | ok (i : Instr) (rest : List Byte)
  | error (e : DecodeError)
  deriving DecidableEq, Repr

/-- The decoder, total on any bytes: opcode lookup, then the operand bytes of the format (30_encoding.md R80, R85). -/
def decode : List Byte → Decoded
  | [] => .error .noBytes
  | op :: rest =>
    match opcodeForm op, rest with
    | none, _ => .error (.unimplementedOpcode op)
    | some (.f1 i), rest => .ok i rest
    | some (.f2 f), b1 :: rest => .ok (f b1) rest
    | some (.f3 f), b1 :: b2 :: rest => .ok (f (word16 b2 b1)) rest
    | some (.f2 _), [] | some (.f3 _), [] | some (.f3 _), [_] => .error (.missingOperandBytes op)

/-- The descriptor of an instruction (30_encoding.md R86): its opcode byte and mode from R87, its base cycles from
spec/opcode_table.json (70_reset_and_hazards.md R280, timing only). -/
def Instr.descriptor : Instr → Descriptor
  -- Loads and stores (42_load_store.md)
  | .ldaImm _ => ⟨0xA9, .lda, .imm, 2⟩
  | .ldaZp _ => ⟨0xA5, .lda, .zp, 3⟩
  | .ldaZpx _ => ⟨0xB5, .lda, .zpx, 4⟩
  | .ldaAbs _ => ⟨0xAD, .lda, .abs, 4⟩
  | .ldaAbsx _ => ⟨0xBD, .lda, .absx, 4⟩
  | .ldaAbsy _ => ⟨0xB9, .lda, .absy, 4⟩
  | .ldaIndx _ => ⟨0xA1, .lda, .indx, 6⟩
  | .ldaIndy _ => ⟨0xB1, .lda, .indy, 5⟩
  | .ldxImm _ => ⟨0xA2, .ldx, .imm, 2⟩
  | .ldxZp _ => ⟨0xA6, .ldx, .zp, 3⟩
  | .ldxZpy _ => ⟨0xB6, .ldx, .zpy, 4⟩
  | .ldxAbs _ => ⟨0xAE, .ldx, .abs, 4⟩
  | .ldxAbsy _ => ⟨0xBE, .ldx, .absy, 4⟩
  | .ldyImm _ => ⟨0xA0, .ldy, .imm, 2⟩
  | .ldyZp _ => ⟨0xA4, .ldy, .zp, 3⟩
  | .ldyZpx _ => ⟨0xB4, .ldy, .zpx, 4⟩
  | .ldyAbs _ => ⟨0xAC, .ldy, .abs, 4⟩
  | .ldyAbsx _ => ⟨0xBC, .ldy, .absx, 4⟩
  | .staZp _ => ⟨0x85, .sta, .zp, 3⟩
  | .staZpx _ => ⟨0x95, .sta, .zpx, 4⟩
  | .staAbs _ => ⟨0x8D, .sta, .abs, 4⟩
  | .staAbsx _ => ⟨0x9D, .sta, .absx, 5⟩
  | .staAbsy _ => ⟨0x99, .sta, .absy, 5⟩
  | .staIndx _ => ⟨0x81, .sta, .indx, 6⟩
  | .staIndy _ => ⟨0x91, .sta, .indy, 6⟩
  | .stxZp _ => ⟨0x86, .stx, .zp, 3⟩
  | .stxZpy _ => ⟨0x96, .stx, .zpy, 4⟩
  | .stxAbs _ => ⟨0x8E, .stx, .abs, 4⟩
  | .styZp _ => ⟨0x84, .sty, .zp, 3⟩
  | .styZpx _ => ⟨0x94, .sty, .zpx, 4⟩
  | .styAbs _ => ⟨0x8C, .sty, .abs, 4⟩
  -- Transfers and stack (43_transfer_stack.md)
  | .tax => ⟨0xAA, .tax, .imp, 2⟩
  | .tay => ⟨0xA8, .tay, .imp, 2⟩
  | .txa => ⟨0x8A, .txa, .imp, 2⟩
  | .tya => ⟨0x98, .tya, .imp, 2⟩
  | .tsx => ⟨0xBA, .tsx, .imp, 2⟩
  | .txs => ⟨0x9A, .txs, .imp, 2⟩
  | .pha => ⟨0x48, .pha, .imp, 3⟩
  | .php => ⟨0x08, .php, .imp, 3⟩
  | .pla => ⟨0x68, .pla, .imp, 4⟩
  | .plp => ⟨0x28, .plp, .imp, 4⟩
  -- Arithmetic, compare, increment and decrement (44_arithmetic.md)
  | .adcImm _ => ⟨0x69, .adc, .imm, 2⟩
  | .adcZp _ => ⟨0x65, .adc, .zp, 3⟩
  | .adcZpx _ => ⟨0x75, .adc, .zpx, 4⟩
  | .adcAbs _ => ⟨0x6D, .adc, .abs, 4⟩
  | .adcAbsx _ => ⟨0x7D, .adc, .absx, 4⟩
  | .adcAbsy _ => ⟨0x79, .adc, .absy, 4⟩
  | .adcIndx _ => ⟨0x61, .adc, .indx, 6⟩
  | .adcIndy _ => ⟨0x71, .adc, .indy, 5⟩
  | .sbcImm _ => ⟨0xE9, .sbc, .imm, 2⟩
  | .sbcZp _ => ⟨0xE5, .sbc, .zp, 3⟩
  | .sbcZpx _ => ⟨0xF5, .sbc, .zpx, 4⟩
  | .sbcAbs _ => ⟨0xED, .sbc, .abs, 4⟩
  | .sbcAbsx _ => ⟨0xFD, .sbc, .absx, 4⟩
  | .sbcAbsy _ => ⟨0xF9, .sbc, .absy, 4⟩
  | .sbcIndx _ => ⟨0xE1, .sbc, .indx, 6⟩
  | .sbcIndy _ => ⟨0xF1, .sbc, .indy, 5⟩
  | .cmpImm _ => ⟨0xC9, .cmp, .imm, 2⟩
  | .cmpZp _ => ⟨0xC5, .cmp, .zp, 3⟩
  | .cmpZpx _ => ⟨0xD5, .cmp, .zpx, 4⟩
  | .cmpAbs _ => ⟨0xCD, .cmp, .abs, 4⟩
  | .cmpAbsx _ => ⟨0xDD, .cmp, .absx, 4⟩
  | .cmpAbsy _ => ⟨0xD9, .cmp, .absy, 4⟩
  | .cmpIndx _ => ⟨0xC1, .cmp, .indx, 6⟩
  | .cmpIndy _ => ⟨0xD1, .cmp, .indy, 5⟩
  | .cpxImm _ => ⟨0xE0, .cpx, .imm, 2⟩
  | .cpxZp _ => ⟨0xE4, .cpx, .zp, 3⟩
  | .cpxAbs _ => ⟨0xEC, .cpx, .abs, 4⟩
  | .cpyImm _ => ⟨0xC0, .cpy, .imm, 2⟩
  | .cpyZp _ => ⟨0xC4, .cpy, .zp, 3⟩
  | .cpyAbs _ => ⟨0xCC, .cpy, .abs, 4⟩
  | .incZp _ => ⟨0xE6, .inc, .zp, 5⟩
  | .incZpx _ => ⟨0xF6, .inc, .zpx, 6⟩
  | .incAbs _ => ⟨0xEE, .inc, .abs, 6⟩
  | .incAbsx _ => ⟨0xFE, .inc, .absx, 7⟩
  | .decZp _ => ⟨0xC6, .dec, .zp, 5⟩
  | .decZpx _ => ⟨0xD6, .dec, .zpx, 6⟩
  | .decAbs _ => ⟨0xCE, .dec, .abs, 6⟩
  | .decAbsx _ => ⟨0xDE, .dec, .absx, 7⟩
  | .inx => ⟨0xE8, .inx, .imp, 2⟩
  | .iny => ⟨0xC8, .iny, .imp, 2⟩
  | .dex => ⟨0xCA, .dex, .imp, 2⟩
  | .dey => ⟨0x88, .dey, .imp, 2⟩
  -- Logic, bit test, shifts and rotates (45_logic_shift.md)
  | .andImm _ => ⟨0x29, .and, .imm, 2⟩
  | .andZp _ => ⟨0x25, .and, .zp, 3⟩
  | .andZpx _ => ⟨0x35, .and, .zpx, 4⟩
  | .andAbs _ => ⟨0x2D, .and, .abs, 4⟩
  | .andAbsx _ => ⟨0x3D, .and, .absx, 4⟩
  | .andAbsy _ => ⟨0x39, .and, .absy, 4⟩
  | .andIndx _ => ⟨0x21, .and, .indx, 6⟩
  | .andIndy _ => ⟨0x31, .and, .indy, 5⟩
  | .oraImm _ => ⟨0x09, .ora, .imm, 2⟩
  | .oraZp _ => ⟨0x05, .ora, .zp, 3⟩
  | .oraZpx _ => ⟨0x15, .ora, .zpx, 4⟩
  | .oraAbs _ => ⟨0x0D, .ora, .abs, 4⟩
  | .oraAbsx _ => ⟨0x1D, .ora, .absx, 4⟩
  | .oraAbsy _ => ⟨0x19, .ora, .absy, 4⟩
  | .oraIndx _ => ⟨0x01, .ora, .indx, 6⟩
  | .oraIndy _ => ⟨0x11, .ora, .indy, 5⟩
  | .eorImm _ => ⟨0x49, .eor, .imm, 2⟩
  | .eorZp _ => ⟨0x45, .eor, .zp, 3⟩
  | .eorZpx _ => ⟨0x55, .eor, .zpx, 4⟩
  | .eorAbs _ => ⟨0x4D, .eor, .abs, 4⟩
  | .eorAbsx _ => ⟨0x5D, .eor, .absx, 4⟩
  | .eorAbsy _ => ⟨0x59, .eor, .absy, 4⟩
  | .eorIndx _ => ⟨0x41, .eor, .indx, 6⟩
  | .eorIndy _ => ⟨0x51, .eor, .indy, 5⟩
  | .bitZp _ => ⟨0x24, .bit, .zp, 3⟩
  | .bitAbs _ => ⟨0x2C, .bit, .abs, 4⟩
  | .aslAcc => ⟨0x0A, .asl, .acc, 2⟩
  | .aslZp _ => ⟨0x06, .asl, .zp, 5⟩
  | .aslZpx _ => ⟨0x16, .asl, .zpx, 6⟩
  | .aslAbs _ => ⟨0x0E, .asl, .abs, 6⟩
  | .aslAbsx _ => ⟨0x1E, .asl, .absx, 7⟩
  | .lsrAcc => ⟨0x4A, .lsr, .acc, 2⟩
  | .lsrZp _ => ⟨0x46, .lsr, .zp, 5⟩
  | .lsrZpx _ => ⟨0x56, .lsr, .zpx, 6⟩
  | .lsrAbs _ => ⟨0x4E, .lsr, .abs, 6⟩
  | .lsrAbsx _ => ⟨0x5E, .lsr, .absx, 7⟩
  | .rolAcc => ⟨0x2A, .rol, .acc, 2⟩
  | .rolZp _ => ⟨0x26, .rol, .zp, 5⟩
  | .rolZpx _ => ⟨0x36, .rol, .zpx, 6⟩
  | .rolAbs _ => ⟨0x2E, .rol, .abs, 6⟩
  | .rolAbsx _ => ⟨0x3E, .rol, .absx, 7⟩
  | .rorAcc => ⟨0x6A, .ror, .acc, 2⟩
  | .rorZp _ => ⟨0x66, .ror, .zp, 5⟩
  | .rorZpx _ => ⟨0x76, .ror, .zpx, 6⟩
  | .rorAbs _ => ⟨0x6E, .ror, .abs, 6⟩
  | .rorAbsx _ => ⟨0x7E, .ror, .absx, 7⟩
  -- Jumps, calls, returns and branches (46_control_flow.md)
  | .jmpAbs _ => ⟨0x4C, .jmp, .abs, 3⟩
  | .jmpInd _ => ⟨0x6C, .jmp, .ind, 5⟩
  | .jsr _ => ⟨0x20, .jsr, .abs, 6⟩
  | .rts => ⟨0x60, .rts, .imp, 6⟩
  | .bcc _ => ⟨0x90, .bcc, .rel, 2⟩
  | .bcs _ => ⟨0xB0, .bcs, .rel, 2⟩
  | .beq _ => ⟨0xF0, .beq, .rel, 2⟩
  | .bne _ => ⟨0xD0, .bne, .rel, 2⟩
  | .bmi _ => ⟨0x30, .bmi, .rel, 2⟩
  | .bpl _ => ⟨0x10, .bpl, .rel, 2⟩
  | .bvc _ => ⟨0x50, .bvc, .rel, 2⟩
  | .bvs _ => ⟨0x70, .bvs, .rel, 2⟩
  -- Flag instructions, NOP, BRK and RTI (47_flag_system.md)
  | .clc => ⟨0x18, .clc, .imp, 2⟩
  | .sec => ⟨0x38, .sec, .imp, 2⟩
  | .cli => ⟨0x58, .cli, .imp, 2⟩
  | .sei => ⟨0x78, .sei, .imp, 2⟩
  | .cld => ⟨0xD8, .cld, .imp, 2⟩
  | .sed => ⟨0xF8, .sed, .imp, 2⟩
  | .clv => ⟨0xB8, .clv, .imp, 2⟩
  | .nop => ⟨0xEA, .nop, .imp, 2⟩
  | .brk => ⟨0x00, .brk, .imp, 7⟩
  | .rti => ⟨0x40, .rti, .imp, 6⟩

/-- The operand of an instruction in its mode (30_encoding.md R82 to R84). -/
def Instr.operand : Instr → Operand
  -- Loads and stores (42_load_store.md)
  | .ldaImm v => .immediate v
  | .ldaZp b => .mem (.zp b)
  | .ldaZpx b => .mem (.zpx b)
  | .ldaAbs w => .mem (.abs w)
  | .ldaAbsx w => .mem (.absx w)
  | .ldaAbsy w => .mem (.absy w)
  | .ldaIndx b => .mem (.indx b)
  | .ldaIndy b => .mem (.indy b)
  | .ldxImm v => .immediate v
  | .ldxZp b => .mem (.zp b)
  | .ldxZpy b => .mem (.zpy b)
  | .ldxAbs w => .mem (.abs w)
  | .ldxAbsy w => .mem (.absy w)
  | .ldyImm v => .immediate v
  | .ldyZp b => .mem (.zp b)
  | .ldyZpx b => .mem (.zpx b)
  | .ldyAbs w => .mem (.abs w)
  | .ldyAbsx w => .mem (.absx w)
  | .staZp b => .mem (.zp b)
  | .staZpx b => .mem (.zpx b)
  | .staAbs w => .mem (.abs w)
  | .staAbsx w => .mem (.absx w)
  | .staAbsy w => .mem (.absy w)
  | .staIndx b => .mem (.indx b)
  | .staIndy b => .mem (.indy b)
  | .stxZp b => .mem (.zp b)
  | .stxZpy b => .mem (.zpy b)
  | .stxAbs w => .mem (.abs w)
  | .styZp b => .mem (.zp b)
  | .styZpx b => .mem (.zpx b)
  | .styAbs w => .mem (.abs w)
  -- Transfers and stack (43_transfer_stack.md)
  | .tax => .implied
  | .tay => .implied
  | .txa => .implied
  | .tya => .implied
  | .tsx => .implied
  | .txs => .implied
  | .pha => .implied
  | .php => .implied
  | .pla => .implied
  | .plp => .implied
  -- Arithmetic, compare, increment and decrement (44_arithmetic.md)
  | .adcImm v => .immediate v
  | .adcZp b => .mem (.zp b)
  | .adcZpx b => .mem (.zpx b)
  | .adcAbs w => .mem (.abs w)
  | .adcAbsx w => .mem (.absx w)
  | .adcAbsy w => .mem (.absy w)
  | .adcIndx b => .mem (.indx b)
  | .adcIndy b => .mem (.indy b)
  | .sbcImm v => .immediate v
  | .sbcZp b => .mem (.zp b)
  | .sbcZpx b => .mem (.zpx b)
  | .sbcAbs w => .mem (.abs w)
  | .sbcAbsx w => .mem (.absx w)
  | .sbcAbsy w => .mem (.absy w)
  | .sbcIndx b => .mem (.indx b)
  | .sbcIndy b => .mem (.indy b)
  | .cmpImm v => .immediate v
  | .cmpZp b => .mem (.zp b)
  | .cmpZpx b => .mem (.zpx b)
  | .cmpAbs w => .mem (.abs w)
  | .cmpAbsx w => .mem (.absx w)
  | .cmpAbsy w => .mem (.absy w)
  | .cmpIndx b => .mem (.indx b)
  | .cmpIndy b => .mem (.indy b)
  | .cpxImm v => .immediate v
  | .cpxZp b => .mem (.zp b)
  | .cpxAbs w => .mem (.abs w)
  | .cpyImm v => .immediate v
  | .cpyZp b => .mem (.zp b)
  | .cpyAbs w => .mem (.abs w)
  | .incZp b => .mem (.zp b)
  | .incZpx b => .mem (.zpx b)
  | .incAbs w => .mem (.abs w)
  | .incAbsx w => .mem (.absx w)
  | .decZp b => .mem (.zp b)
  | .decZpx b => .mem (.zpx b)
  | .decAbs w => .mem (.abs w)
  | .decAbsx w => .mem (.absx w)
  | .inx => .implied
  | .iny => .implied
  | .dex => .implied
  | .dey => .implied
  -- Logic, bit test, shifts and rotates (45_logic_shift.md)
  | .andImm v => .immediate v
  | .andZp b => .mem (.zp b)
  | .andZpx b => .mem (.zpx b)
  | .andAbs w => .mem (.abs w)
  | .andAbsx w => .mem (.absx w)
  | .andAbsy w => .mem (.absy w)
  | .andIndx b => .mem (.indx b)
  | .andIndy b => .mem (.indy b)
  | .oraImm v => .immediate v
  | .oraZp b => .mem (.zp b)
  | .oraZpx b => .mem (.zpx b)
  | .oraAbs w => .mem (.abs w)
  | .oraAbsx w => .mem (.absx w)
  | .oraAbsy w => .mem (.absy w)
  | .oraIndx b => .mem (.indx b)
  | .oraIndy b => .mem (.indy b)
  | .eorImm v => .immediate v
  | .eorZp b => .mem (.zp b)
  | .eorZpx b => .mem (.zpx b)
  | .eorAbs w => .mem (.abs w)
  | .eorAbsx w => .mem (.absx w)
  | .eorAbsy w => .mem (.absy w)
  | .eorIndx b => .mem (.indx b)
  | .eorIndy b => .mem (.indy b)
  | .bitZp b => .mem (.zp b)
  | .bitAbs w => .mem (.abs w)
  | .aslAcc => .accumulator
  | .aslZp b => .mem (.zp b)
  | .aslZpx b => .mem (.zpx b)
  | .aslAbs w => .mem (.abs w)
  | .aslAbsx w => .mem (.absx w)
  | .lsrAcc => .accumulator
  | .lsrZp b => .mem (.zp b)
  | .lsrZpx b => .mem (.zpx b)
  | .lsrAbs w => .mem (.abs w)
  | .lsrAbsx w => .mem (.absx w)
  | .rolAcc => .accumulator
  | .rolZp b => .mem (.zp b)
  | .rolZpx b => .mem (.zpx b)
  | .rolAbs w => .mem (.abs w)
  | .rolAbsx w => .mem (.absx w)
  | .rorAcc => .accumulator
  | .rorZp b => .mem (.zp b)
  | .rorZpx b => .mem (.zpx b)
  | .rorAbs w => .mem (.abs w)
  | .rorAbsx w => .mem (.absx w)
  -- Jumps, calls, returns and branches (46_control_flow.md)
  | .jmpAbs w => .mem (.abs w)
  | .jmpInd w => .indirect w
  | .jsr w => .mem (.abs w)
  | .rts => .implied
  | .bcc d => .relative d
  | .bcs d => .relative d
  | .beq d => .relative d
  | .bne d => .relative d
  | .bmi d => .relative d
  | .bpl d => .relative d
  | .bvc d => .relative d
  | .bvs d => .relative d
  -- Flag instructions, NOP, BRK and RTI (47_flag_system.md)
  | .clc => .implied
  | .sec => .implied
  | .cli => .implied
  | .sei => .implied
  | .cld => .implied
  | .sed => .implied
  | .clv => .implied
  | .nop => .implied
  | .brk => .implied
  | .rti => .implied

/-- The opcode byte of an instruction (30_encoding.md R87). -/
def Instr.opcode (i : Instr) : Byte := i.descriptor.opcode

/-- The mnemonic of an instruction (30_encoding.md R87). -/
def Instr.mnemonic (i : Instr) : Mnemonic := i.descriptor.mnemonic

/-- The addressing mode of an instruction (30_encoding.md R87). -/
def Instr.mode (i : Instr) : Mode := i.descriptor.mode

/-- The length in bytes of an instruction (30_encoding.md R81). -/
def Instr.length (i : Instr) : Nat := i.mode.length

/-- An instruction is well formed when its descriptor is (log 13). -/
def Instr.wellFormed (i : Instr) : Bool := i.descriptor.wellFormed

/-- The mode of an operand. -/
def Operand.mode : Operand → Mode
  | .implied => .imp
  | .accumulator => .acc
  | .immediate _ => .imm
  | .mem (.zp _) => .zp
  | .mem (.zpx _) => .zpx
  | .mem (.zpy _) => .zpy
  | .mem (.abs _) => .abs
  | .mem (.absx _) => .absx
  | .mem (.absy _) => .absy
  | .mem (.indx _) => .indx
  | .mem (.indy _) => .indy
  | .indirect _ => .ind
  | .relative _ => .rel

/-- The length of an instruction with a memory operand (30_encoding.md R81). -/
def MemOperand.length (o : MemOperand) : Nat := (Operand.mem o).mode.length

/-- The operand bytes in the order they follow the opcode: none, `b1`, or `b1` and `b2`, the low byte of a 16-bit
operand first (30_encoding.md R80, R83). -/
def Operand.bytes : Operand → List Byte
  | .implied | .accumulator => []
  | .immediate v => [v]
  | .mem (.zp b) | .mem (.zpx b) | .mem (.zpy b) | .mem (.indx b) | .mem (.indy b) => [b]
  | .mem (.abs w) | .mem (.absx w) | .mem (.absy w) | .indirect w => [lo8 w, hi8 w]
  | .relative d => [d]

/-- The encoder: the opcode byte and then the operand bytes (30_encoding.md R80). -/
def encode (i : Instr) : List Byte := i.opcode :: i.operand.bytes

/-- The opcode table as descriptors (30_encoding.md R86): each row's instruction, described. -/
def descriptors : List Descriptor := opcodeTable.map fun row => (row.2.build 0 0).descriptor

/-- Byte number `k` of a table word: bit 0 of the word is the least significant bit of the first byte
(spec/opcode_table.json, 98_reader.md). -/
def tableByte (w k : Nat) : Byte := BitVec.ofNat 8 (w / 256 ^ k)

/-- The bytes of a table word as the hardware stores them, the first at the lowest address, up to the longest
instruction (three bytes); every bit above `nbits` is 0. -/
def tableBytes (nbits w : Nat) : List Byte :=
  let v := w % 2 ^ nbits
  [tableByte v 0, tableByte v 1, tableByte v 2]

/-- The instruction the decoder reads from a table word. -/
def decodeTableWord (nbits w : Nat) : Option Instr :=
  match decode (tableBytes nbits w) with
  | .ok i _ => some i
  | .error _ => none

end Sys2Proof
end

