-- ==== Sys2Proof/Config.lean ====
section
/-! DEFINITION. The parameters of the hardware (00_scope.md R5) and the free values the spec leaves open.
The settings are a record that `State` carries, so that a statement about every state holds for every setting;
the free values are constants without a body, so that no proof can learn what they are. -/

namespace Sys2Proof

/-- `RND_REFRESH` (00_scope.md R5, decision D5): when cell 0x00FE gets a fresh draw. -/
inductive RndRefresh where
  | perLoad
  | perStep
  deriving DecidableEq, Repr

/-- `BRK_PC_PUSH_OFFSET` (00_scope.md R5, decision D8): what BRK adds to its own address before pushing it, 0 or 2. -/
inductive BrkPcPushOffset where
  | zero
  | two
  deriving DecidableEq, Repr

/-- The parameters of the step relation (00_scope.md R5, 10_state.md R41). -/
structure Config where
  /-- `RND_REFRESH` (40_execution_engine.md R110) -/
  rndRefresh : RndRefresh
  /-- `BRK_PC_PUSH_OFFSET` (47_flag_system.md R232) -/
  brkPcPushOffset : BrkPcPushOffset
  /-- `JMP_IND_PAGE_WRAP` (41_addressing_modes.md R133) -/
  jmpIndPageWrap : Bool
  /-- `KEY_DEFAULT`, the byte load writes to 0x00FF (20_memory.md R58) -/
  keyDefault : Byte
  deriving DecidableEq, Repr

/-- FREE VALUE: the n-th byte that the host's generator supplies for cell 0x00FE: "any byte, under no law"
(20_memory.md R57, decision D5; log 2). DESIGN CHOICE, log 15: it is one function for every machine, so two machines with the
same counter hold equal draws, where the spec does not say whether two instances share a generator. -/
opaque Config.draw : Nat → Byte

/-- FREE VALUE: `KEY_DEFAULT`, which the spec leaves OPEN (00_scope.md R5, decision D4; log 1). -/
opaque Config.keyDefaultByte : Byte

/-- The default load origin 0x0600 (00_scope.md R5, decision D3). -/
def Config.defaultOrigin : Addr := 0x0600

/-- The spec's default setting of every parameter that has one (00_scope.md R5); log 3. -/
def Config.standard : Config :=
  { rndRefresh := .perLoad, brkPcPushOffset := .two, jmpIndPageWrap := true, keyDefault := Config.keyDefaultByte }

end Sys2Proof
end

