-- ==== Sys2Proof/Machine/State.lean ====
section
/-! DEFINITION. The state of the machine as plain data (10_state.md), the reasons a step can stop, and the state right
after reset. -/

namespace Sys2Proof.Machine

/-- The only fault reason of the machine (10_state.md R38): the byte fetched and the address it was fetched from. -/
inductive FaultReason where
  | unimplementedOpcode (opcode : Byte) (pc : Addr)
  deriving DecidableEq, Repr

/-- The engine state (10_state.md R38, 40_execution_engine.md R100). -/
inductive Engine where
  | running
  | halted
  | faulted (reason : FaultReason)
  deriving DecidableEq, Repr

/-- Memory: 65536 byte cells (10_state.md R39) as a list of (address, byte) pairs in one canonical form, `Memory.wf`.
An unlisted cell reads as 0x00 (20_memory.md R51); the two cells that load seeds are always listed (log 5). -/
abbrev Memory := List Host.Cell

/-- The machine's state (10_state.md R20, R38, R39), and with it the model's own fields `cfg` (the parameters of the
step relation, R41; log 3) and `draws` (how many bytes the host's generator has supplied; log 2, log 15). -/
structure State where
  /-- A, the accumulator -/
  a : Byte
  /-- X, index register -/
  x : Byte
  /-- Y, index register -/
  y : Byte
  /-- S, the stack pointer: it names the cell 0x0100 + S -/
  sp : Byte
  /-- P, the status register N V 5 B D I Z C -/
  p : Byte
  /-- PC, the program counter -/
  pc : Addr
  /-- the engine state -/
  engine : Engine
  /-- the 64 KiB memory -/
  mem : Memory
  /-- the model's own: the hardware's parameters -/
  cfg : Config
  /-- the model's own: the number of draws taken -/
  draws : Nat
  deriving DecidableEq, Repr

/-- Why a step has no next state. Both reasons say that the machine has no step outside Running
(40_execution_engine.md R107: "A model gives these states no successor"); neither is an error of an instruction. -/
inductive Fault where
  /-- Raised by `step` in the engine state Halted, the normal end of a run (60_exceptions.md R243). Safe: the
  machine has no transition there. -/
  | stepWhileHalted
  /-- Raised by `step` in the engine state Faulted, with the machine's own fault reason (60_exceptions.md R241).
  Safe: the machine has no transition there. -/
  | stepWhileFaulted (reason : FaultReason)
  deriving DecidableEq, Repr

/-- Why an instruction has no meaning in the model. -/
inductive Refusal where
  /-- Raised by an arm of `exec` whose instruction is not modelled yet; no arm of this model raises it. Safe. -/
  | notModelled (mnemonic : String)
  deriving DecidableEq, Repr

/-- What a step or an instruction answers. -/
abbrev Outcome := Host.Outcome State Fault Refusal

/-- Memory right after the load that reset is: every cell 0x00 but the two seeded ones (10_state.md R42):
0x00FE holds a draw (log 2, log 15), 0x00FF the default key code (log 1). -/
def Memory.reset : Memory := [(0x00FE, Config.draw 0), (0x00FF, Config.keyDefaultByte)]

/-- The machine right after reset, which is program load (70_reset_and_hazards.md R270): the values of
10_state.md R42 for the default origin and an empty image (log 4), with the spec's default parameters (log 3) and
one draw taken (log 2, log 15). -/
def State.reset : State where
  a := 0x00
  x := 0x00
  y := 0x00
  sp := 0x00
  p := 0x00
  pc := Config.defaultOrigin
  engine := .running
  mem := Memory.reset
  cfg := Config.standard
  draws := 1

end Sys2Proof.Machine
end

