-- ==== Sys2Proof/Machine/Flags.lean ====
section
/-! DEFINITION. The status register and every flag computation (10_state.md R26 to R36, 44_arithmetic.md,
45_logic_shift.md). The functions on values are written once here; the instructions only choose which flags to
write. -/

namespace Sys2Proof.Machine

/-- The eight bits of P by name (10_state.md R26); `five` is the unused bit 5. -/
inductive Flag where
  | C | Z | I | D | B | five | V | N
  deriving DecidableEq, Repr

/-- The bit position of a flag (10_state.md R26). -/
def Flag.pos : Flag → Nat
  | .C => 0
  | .Z => 1
  | .I => 2
  | .D => 3
  | .B => 4
  | .five => 5
  | .V => 6
  | .N => 7

/-- The mask of a flag, `1 << bit position` (10_state.md R30). -/
def Flag.mask (f : Flag) : Byte := 1#8 <<< f.pos

/-- The Boolean view of one flag of a status byte (10_state.md R26, R30). -/
def getFlag (p : Byte) (f : Flag) : Bool := p.getLsbD f.pos

/-- `P <- (P & ~mask) | (b ? mask : 0)` (10_state.md R30). -/
def setFlag (p : Byte) (f : Flag) (b : Bool) : Byte := (p &&& ~~~ f.mask) ||| (if b then f.mask else 0)

/-- The flag `P.f` of a state (00_scope.md R8). -/
def State.flag (s : State) (f : Flag) : Bool := getFlag s.p f

/-- `P.f <- b`: the other seven bits stay (00_scope.md R8, 10_state.md R30). -/
def State.setFlag (s : State) (f : Flag) (b : Bool) : State := { s with p := Machine.setFlag s.p f b }

/-- `SetZN(v)`: `P.Z <- (v = 0); P.N <- v[7]` (00_scope.md R8). -/
def State.setZN (s : State) (v : Byte) : State := (s.setFlag .Z (v == 0)).setFlag .N (v.getLsbD 7)

/-- The widened sum of ADC, a natural number 0 to 0x1FF (44_arithmetic.md R165). -/
def adcSum (a m : Byte) (c : Bool) : Nat := a.toNat + m.toNat + c.toNat

/-- `r <- u8(sum)` (44_arithmetic.md R165). -/
def adcResult (a m : Byte) (c : Bool) : Byte := BitVec.ofNat 8 (adcSum a m c)

/-- `P.C <- (sum > 0xFF)` (44_arithmetic.md R165). -/
def adcCarry (a m : Byte) (c : Bool) : Bool := decide (adcSum a m c > 0xFF)

/-- `P.V <- ((~(A ^ M) & (A ^ r) & 0x80) != 0)` on the pre-update A (44_arithmetic.md R165). -/
def adcOverflow (a m : Byte) (c : Bool) : Bool :=
  (~~~ (a ^^^ m) &&& (a ^^^ adcResult a m c) &&& 0x80) != 0

/-- The truncated difference of a compare, `d <- u8(r - M)` (44_arithmetic.md R167). -/
def cmpDiff (r m : Byte) : Byte := r - m

/-- `P.C <- (r >= M)`, an unsigned comparison (44_arithmetic.md R167). -/
def cmpCarry (r m : Byte) : Bool := decide (m.toNat ≤ r.toNat)

/-- A shift's result and the bit shifted out (45_logic_shift.md R193). -/
structure Shifted where
  result : Byte
  out : Bool
  deriving DecidableEq, Repr

/-- `r <- u8(v << 1); P.C <- v[7]` (45_logic_shift.md R189). -/
def shiftAsl (v : Byte) : Shifted := ⟨v <<< 1, v.getLsbD 7⟩

/-- `r <- v >> 1; P.C <- v[0]` (45_logic_shift.md R190). -/
def shiftLsr (v : Byte) : Shifted := ⟨v >>> 1, v.getLsbD 0⟩

/-- `r <- u8((v << 1) | c0); P.C <- v[7]` (45_logic_shift.md R191). -/
def shiftRol (c0 : Bool) (v : Byte) : Shifted := ⟨(v <<< 1) ||| (if c0 then 0x01 else 0), v.getLsbD 7⟩

/-- `r <- (v >> 1) | (c0 << 7); P.C <- v[0]` (45_logic_shift.md R192). -/
def shiftRor (c0 : Bool) (v : Byte) : Shifted := ⟨(v >>> 1) ||| (if c0 then 0x80 else 0), v.getLsbD 0⟩

/-- The image of P that PHP and BRK push: bits 5 and 4 forced to 1 (10_state.md R33, 43_transfer_stack.md R159). -/
def statusImage (p : Byte) : Byte := p ||| 0x30

/-- `P <- (v & 0xCF) | (P & 0x30)`: what PLP and RTI load; bits 5 and 4 of P stay (43_transfer_stack.md R161,
47_flag_system.md R233). -/
def loadedStatus (v p : Byte) : Byte := (v &&& 0xCF) ||| (p &&& 0x30)

end Sys2Proof.Machine
end

