-- ==== Sys2Proof/Machine/Ops.lean ====
section
/-! DEFINITION. The named operations over memory and registers: the bus (20_memory.md R51), little-endian pointer
reads (00_scope.md R9), the stack (10_state.md R23), the advance of PC (40_execution_engine.md R103), and the two
events of the machine, the UnimplementedOpcode fault (60_exceptions.md R241) and BRK's trap entry (R247), with the
return that pulls what the trap entry pushes (R248). -/

namespace Sys2Proof.Machine

/-! ### The memory bus -/

/-- The two cells that load seeds, 0x00FE and 0x00FF (20_memory.md R57, R58): always listed (log 5). -/
def seededCell (k : Nat) : Bool := k == 0x00FE || k == 0x00FF

/-- The byte listed for an address; 0x00 for an unlisted one (20_memory.md R51; log 5). -/
def lookupCell (k : Nat) : Memory → Byte
  | [] => 0x00
  | c :: rest => if c.1 = k then c.2 else lookupCell k rest

/-- A list of cells with the cell `k` set to `v`, at its place in the rising order. -/
def insertCell (k : Nat) (v : Byte) : Memory → Memory
  | [] => [(k, v)]
  | c :: rest =>
    if c.1 < k then c :: insertCell k v rest
    else if c.1 = k then (k, v) :: rest
    else (k, v) :: c :: rest

/-- A list of cells without the cell `k`. -/
def eraseCell (k : Nat) : Memory → Memory
  | [] => []
  | c :: rest => if c.1 = k then eraseCell k rest else c :: eraseCell k rest

/-- `MemRead(a, 1)` (00_scope.md R9, 20_memory.md R51). -/
def Memory.read (m : Memory) (a : Addr) : Byte := lookupCell a.toNat m

/-- `MemWrite(a, 1, v)`: exactly one cell is replaced (00_scope.md R9, 20_memory.md R51). Writing 0x00, which an
unlisted cell reads as, unlists the cell, so that equal memories are equal data (log 5). -/
def Memory.write (m : Memory) (a : Addr) (v : Byte) : Memory :=
  if seededCell a.toNat || v != 0x00 then insertCell a.toNat v m else eraseCell a.toNat m

/-- Memory with every cell 0x00, in canonical form. -/
def Memory.zeroed : Memory := [(0x00FE, 0x00), (0x00FF, 0x00)]

/-- The canonical form: addresses strictly rising and inside the address space, no entry 0x00 but for the two seeded
cells, and these two always listed (log 5). -/
abbrev Memory.wf (m : Memory) : Prop :=
  m.Pairwise (fun c d => c.1 < d.1) ∧
  (∀ c ∈ m, c.1 < 0x10000 ∧ (seededCell c.1 = true ∨ c.2 ≠ 0x00)) ∧
  (∃ c ∈ m, c.1 = 0x00FE) ∧ (∃ c ∈ m, c.1 = 0x00FF)

/-- `MemRead(a, 1)` on a state. -/
def State.read (s : State) (a : Addr) : Byte := s.mem.read a

/-- `MemWrite(a, 1, v)` on a state. -/
def State.write (s : State) (a : Addr) (v : Byte) : State := { s with mem := s.mem.write a v }

/-! ### Addresses -/

/-- `zext_16(b)`: a byte as a page-zero address `{0x00, b}` (00_scope.md R7, 30_encoding.md R83). -/
def zeroPage (b : Byte) : Addr := word16 0x00 b

/-- `sext_16(b)` (00_scope.md R7). -/
def sext16 (b : Byte) : Addr := b.signExtend 16

/-- `Read16(a)`: a little-endian 16-bit value, the second address one higher modulo 0x10000 (00_scope.md R9). -/
def State.read16 (s : State) (a : Addr) : Addr := word16 (s.read (a + 1)) (s.read a)

/-- `Read16zp(z)`: a little-endian pointer with both bytes in page zero (00_scope.md R9, decision D14). -/
def State.read16zp (s : State) (z : Byte) : Addr := word16 (s.read (zeroPage (z + 1))) (s.read (zeroPage z))

/-! ### The stack -/

/-- The stack cell that a stack pointer names, 0x0100 + S (10_state.md R22). -/
def stackCell (sp : Byte) : Addr := word16 0x01 sp

/-- `Push(b)`: `MemWrite(0x0100 + S, 1, b); S <- u8(S - 1)` (10_state.md R23). -/
def State.push (s : State) (b : Byte) : State := { s.write (stackCell s.sp) b with sp := s.sp - 1 }

/-- The byte that `Pull()` returns: `MemRead(0x0100 + u8(S + 1), 1)` (10_state.md R23). -/
def State.pulled (s : State) : Byte := s.read (stackCell (s.sp + 1))

/-- The state after `Pull()`: `S <- u8(S + 1)` (10_state.md R23). -/
def State.popped (s : State) : State := { s with sp := s.sp + 1 }

/-- `Push16(w) = Push(hi8(w)); Push(lo8(w))` (00_scope.md R10, decision D9). -/
def State.push16 (s : State) (w : Addr) : State := (s.push (hi8 w)).push (lo8 w)

/-- The value of `Pull16()`: low byte first, then high byte (00_scope.md R10, decision D9). -/
def State.pulled16 (s : State) : Addr := word16 s.popped.pulled s.pulled

/-- The state after `Pull16()`. -/
def State.popped16 (s : State) : State := s.popped.popped

/-! ### The program counter -/

/-- `PC <- u16(pc0 + length)` (40_execution_engine.md R103). -/
def State.advance (s : State) (length : Nat) : State := { s with pc := s.pc + BitVec.ofNat 16 length }

/-- `pc <- target` (00_scope.md R11). -/
def State.jump (s : State) (target : Addr) : State := { s with pc := target }

/-! ### The events of the machine -/

/-- `raise UnimplementedOpcode(opcode, pc)`: the engine goes to Faulted and nothing else changes
(00_scope.md R11, 40_execution_engine.md R102, 60_exceptions.md R241). -/
def State.raiseUnimplemented (s : State) (opcode : Byte) : State :=
  { s with engine := .faulted (.unimplementedOpcode opcode s.pc) }

/-- `BRK_PC_PUSH_OFFSET` as a number (47_flag_system.md R232). -/
def brkOffset : BrkPcPushOffset → Addr
  | .zero => 0
  | .two => 2

/-- BRK's trap entry (60_exceptions.md R247, 47_flag_system.md R232): B is set, the PC value and then the status image
are pushed, the engine halts; PC stays, I stays, no vector is read. -/
def State.breakEntry (s : State) : State :=
  let t := (s.setFlag .B true).push16 (s.pc + brkOffset s.cfg.brkPcPushOffset)
  { t.push (statusImage t.p) with engine := .halted }

/-- The trap return (60_exceptions.md R248, 47_flag_system.md R233): status first, bits 5 and 4 of P kept, then PC low
and PC high, with no increment. -/
def State.trapReturn (s : State) : State :=
  let t := { s.popped with p := loadedStatus s.pulled s.p }
  t.popped16.jump t.pulled16

end Sys2Proof.Machine
end

