-- ==== Sys2Proof/Machine/Operands.lean ====
section
/-! DEFINITION. The addressing-mode resolver (41_addressing_modes.md) and the shapes of the handlers: what an
instruction does with its operand, once for each access kind of R134 (40_execution_engine.md R103). -/

namespace Sys2Proof.Machine

/-! ### The resolver -/

/-- The effective address of a memory operand (41_addressing_modes.md R124 to R131). -/
def effectiveAddress (s : State) : MemOperand → Addr
  | .zp b => zeroPage b
  | .zpx b => zeroPage (b + s.x)
  | .zpy b => zeroPage (b + s.y)
  | .abs w => w
  | .absx w => w + zeroPage s.x
  | .absy w => w + zeroPage s.y
  | .indx b => s.read16zp (b + s.x)
  | .indy b => s.read16zp b + zeroPage s.y

/-- The target of a branch at `pc0` with displacement byte `d` (30_encoding.md R84, 41_addressing_modes.md R132). -/
def branchTarget (pc0 : Addr) (d : Byte) : Addr := pc0 + 2 + sext16 d

/-- The address of the high byte of JMP's pointer: in the pointer's own page when `JMP_IND_PAGE_WRAP` is true,
otherwise one higher (41_addressing_modes.md R133, decision D15). -/
def pointerHighAddress (pageWrap : Bool) (w : Addr) : Addr :=
  if pageWrap then word16 (hi8 w) (lo8 w + 1) else w + 1

/-- The target of JMP (abs) (41_addressing_modes.md R133). -/
def indirectTarget (s : State) (w : Addr) : Addr :=
  word16 (s.read (pointerHighAddress s.cfg.jmpIndPageWrap w)) (s.read w)

/-- The effective address of any operand: none for Implied, Accumulator and Immediate, the target for Relative
(41_addressing_modes.md R120). -/
def operandAddress (s : State) : Operand → Option Addr
  | .implied | .accumulator | .immediate _ => none
  | .mem o => some (effectiveAddress s o)
  | .indirect w => some (indirectTarget s w)
  | .relative d => some (branchTarget s.pc d)

/-- The operand value `M`: `b1` for Immediate, A for Accumulator, the byte at `ea` for a memory operand
(41_addressing_modes.md R120, 00_scope.md R12). -/
def operandValue (s : State) : Operand → Option Byte
  | .accumulator => some s.a
  | .immediate v => some v
  | .mem o => some (s.read (effectiveAddress s o))
  | .implied | .indirect _ | .relative _ => none

/-- `page_crossed` (41_addressing_modes.md R135): the index changed the high byte of the address (R128, R129, R131);
for a taken branch the target lies in another page than the branch itself (R132, decision D16). -/
def operandPageCrossed (s : State) (taken : Bool) : Operand → Bool
  | .mem (.absx w) => hi8 (w + zeroPage s.x) != hi8 w
  | .mem (.absy w) => hi8 (w + zeroPage s.y) != hi8 w
  | .mem (.indy b) => hi8 (s.read16zp b + zeroPage s.y) != hi8 (s.read16zp b)
  | .relative d => taken && hi8 (branchTarget s.pc d) != hi8 s.pc
  | .mem (.zp _) | .mem (.zpx _) | .mem (.zpy _) | .mem (.abs _) | .mem (.indx _) => false
  | .implied | .accumulator | .immediate _ | .indirect _ => false

/-! ### The shapes of the handlers -/

/-- An Implied instruction: the handler, then the advance by 1 (41_addressing_modes.md R121). -/
def implied (h : State → State) (s : State) : Outcome := .next ((h s).advance 1)

/-- A `value` handler on an immediate byte (41_addressing_modes.md R123). -/
def valueImmediate (h : Byte → State → State) (v : Byte) (s : State) : Outcome := .next ((h v s).advance 2)

/-- A `value` handler on the byte of a memory operand (41_addressing_modes.md R134). -/
def valueMemory (h : Byte → State → State) (o : MemOperand) (s : State) : Outcome :=
  .next ((h (s.read (effectiveAddress s o)) s).advance o.length)

/-- A store: the byte is written at the effective address, which is not read (41_addressing_modes.md R134). -/
def storeMemory (v : Byte) (o : MemOperand) (s : State) : Outcome :=
  .next ((s.write (effectiveAddress s o) v).advance o.length)

/-- What a read-modify-write handler answers: the byte to write back, and the state with its flags. -/
structure Modified where
  result : Byte
  state : State

/-- A read-modify-write handler on A (41_addressing_modes.md R122, 45_logic_shift.md R193). -/
def modifyAccumulator (h : Byte → State → Modified) (s : State) : Outcome :=
  let m := h s.a s
  .next ({ m.state with a := m.result }.advance 1)

/-- A read-modify-write handler on memory: one read and one write of the effective address
(41_addressing_modes.md R134, 45_logic_shift.md R193). -/
def modifyMemory (h : Byte → State → Modified) (o : MemOperand) (s : State) : Outcome :=
  let ea := effectiveAddress s o
  let m := h (s.read ea) s
  .next ((m.state.write ea m.result).advance o.length)

/-- A branch: to the target when the condition holds, otherwise to the next instruction (46_control_flow.md R203). -/
def branchIf (cond : State → Bool) (d : Byte) (s : State) : Outcome :=
  .next (if cond s then s.jump (branchTarget s.pc d) else s.advance 2)

end Sys2Proof.Machine
end

