-- ==== Sys2Proof/Machine/Arithmetic.lean ====
section
/-! DEFINITION. Arithmetic, compare, increment and decrement: ADC, SBC, CMP, CPX, CPY, INC, DEC, INX, INY, DEX, DEY
(44_arithmetic.md R165 to R175). -/

namespace Sys2Proof.Machine

/-- ADC: `sum <- A + M + P.C` in the naturals; C, V, A, Z, N from it, always binary
(44_arithmetic.md R165, 10_state.md R31). -/
def addWithCarry (m : Byte) (s : State) : State :=
  let c := s.flag .C
  let r := adcResult s.a m c
  { (s.setFlag .C (adcCarry s.a m c)).setFlag .V (adcOverflow s.a m c) with a := r }.setZN r

/-- SBC: ADC with the operand's 8-bit one's complement (44_arithmetic.md R166). -/
def subtractWithBorrow (m : Byte) (s : State) : State := addWithCarry (~~~ m) s

/-- The compare of a register value with `M`: C, Z and N from the comparison, no register, no V
(44_arithmetic.md R167 to R169). -/
def compareWith (r m : Byte) (s : State) : State :=
  ((s.setFlag .C (cmpCarry r m)).setFlag .Z (r == m)).setFlag .N ((cmpDiff r m).getLsbD 7)

/-- CMP: compare A (44_arithmetic.md R167). -/
def compareA (m : Byte) (s : State) : State := compareWith s.a m s

/-- CPX: compare X (44_arithmetic.md R168). -/
def compareX (m : Byte) (s : State) : State := compareWith s.x m s

/-- CPY: compare Y (44_arithmetic.md R169). -/
def compareY (m : Byte) (s : State) : State := compareWith s.y m s

/-- `v <- u8(MemRead(ea, 1) + 1); SetZN(v)`, v written back (44_arithmetic.md R170). -/
def incremented (v : Byte) (s : State) : Modified := ⟨v + 1, s.setZN (v + 1)⟩

/-- `v <- u8(MemRead(ea, 1) - 1); SetZN(v)`, v written back (44_arithmetic.md R171). -/
def decremented (v : Byte) (s : State) : Modified := ⟨v - 1, s.setZN (v - 1)⟩

/-- `X <- u8(X + 1); SetZN(X)` (44_arithmetic.md R172). -/
def incrementX (s : State) : State := { s with x := s.x + 1 }.setZN (s.x + 1)

/-- `Y <- u8(Y + 1); SetZN(Y)` (44_arithmetic.md R173). -/
def incrementY (s : State) : State := { s with y := s.y + 1 }.setZN (s.y + 1)

/-- `X <- u8(X - 1); SetZN(X)` (44_arithmetic.md R174). -/
def decrementX (s : State) : State := { s with x := s.x - 1 }.setZN (s.x - 1)

/-- `Y <- u8(Y - 1); SetZN(Y)` (44_arithmetic.md R175). -/
def decrementY (s : State) : State := { s with y := s.y - 1 }.setZN (s.y - 1)

/-- ADC immediate (R165). -/
def execAdcImm (v : Byte) (s : State) : Outcome := valueImmediate addWithCarry v s

/-- ADC zero page (R165). -/
def execAdcZp (b : Byte) (s : State) : Outcome := valueMemory addWithCarry (.zp b) s

/-- ADC zero page,X (R165). -/
def execAdcZpx (b : Byte) (s : State) : Outcome := valueMemory addWithCarry (.zpx b) s

/-- ADC absolute (R165). -/
def execAdcAbs (w : Addr) (s : State) : Outcome := valueMemory addWithCarry (.abs w) s

/-- ADC absolute,X (R165). -/
def execAdcAbsx (w : Addr) (s : State) : Outcome := valueMemory addWithCarry (.absx w) s

/-- ADC absolute,Y (R165). -/
def execAdcAbsy (w : Addr) (s : State) : Outcome := valueMemory addWithCarry (.absy w) s

/-- ADC (zero page,X) (R165). -/
def execAdcIndx (b : Byte) (s : State) : Outcome := valueMemory addWithCarry (.indx b) s

/-- ADC (zero page),Y (R165). -/
def execAdcIndy (b : Byte) (s : State) : Outcome := valueMemory addWithCarry (.indy b) s

/-- SBC immediate (R166). -/
def execSbcImm (v : Byte) (s : State) : Outcome := valueImmediate subtractWithBorrow v s

/-- SBC zero page (R166). -/
def execSbcZp (b : Byte) (s : State) : Outcome := valueMemory subtractWithBorrow (.zp b) s

/-- SBC zero page,X (R166). -/
def execSbcZpx (b : Byte) (s : State) : Outcome := valueMemory subtractWithBorrow (.zpx b) s

/-- SBC absolute (R166). -/
def execSbcAbs (w : Addr) (s : State) : Outcome := valueMemory subtractWithBorrow (.abs w) s

/-- SBC absolute,X (R166). -/
def execSbcAbsx (w : Addr) (s : State) : Outcome := valueMemory subtractWithBorrow (.absx w) s

/-- SBC absolute,Y (R166). -/
def execSbcAbsy (w : Addr) (s : State) : Outcome := valueMemory subtractWithBorrow (.absy w) s

/-- SBC (zero page,X) (R166). -/
def execSbcIndx (b : Byte) (s : State) : Outcome := valueMemory subtractWithBorrow (.indx b) s

/-- SBC (zero page),Y (R166). -/
def execSbcIndy (b : Byte) (s : State) : Outcome := valueMemory subtractWithBorrow (.indy b) s

/-- CMP immediate (R167). -/
def execCmpImm (v : Byte) (s : State) : Outcome := valueImmediate compareA v s

/-- CMP zero page (R167). -/
def execCmpZp (b : Byte) (s : State) : Outcome := valueMemory compareA (.zp b) s

/-- CMP zero page,X (R167). -/
def execCmpZpx (b : Byte) (s : State) : Outcome := valueMemory compareA (.zpx b) s

/-- CMP absolute (R167). -/
def execCmpAbs (w : Addr) (s : State) : Outcome := valueMemory compareA (.abs w) s

/-- CMP absolute,X (R167). -/
def execCmpAbsx (w : Addr) (s : State) : Outcome := valueMemory compareA (.absx w) s

/-- CMP absolute,Y (R167). -/
def execCmpAbsy (w : Addr) (s : State) : Outcome := valueMemory compareA (.absy w) s

/-- CMP (zero page,X) (R167). -/
def execCmpIndx (b : Byte) (s : State) : Outcome := valueMemory compareA (.indx b) s

/-- CMP (zero page),Y (R167). -/
def execCmpIndy (b : Byte) (s : State) : Outcome := valueMemory compareA (.indy b) s

/-- CPX immediate (R168). -/
def execCpxImm (v : Byte) (s : State) : Outcome := valueImmediate compareX v s

/-- CPX zero page (R168). -/
def execCpxZp (b : Byte) (s : State) : Outcome := valueMemory compareX (.zp b) s

/-- CPX absolute (R168). -/
def execCpxAbs (w : Addr) (s : State) : Outcome := valueMemory compareX (.abs w) s

/-- CPY immediate (R169). -/
def execCpyImm (v : Byte) (s : State) : Outcome := valueImmediate compareY v s

/-- CPY zero page (R169). -/
def execCpyZp (b : Byte) (s : State) : Outcome := valueMemory compareY (.zp b) s

/-- CPY absolute (R169). -/
def execCpyAbs (w : Addr) (s : State) : Outcome := valueMemory compareY (.abs w) s

/-- INC zero page (R170). -/
def execIncZp (b : Byte) (s : State) : Outcome := modifyMemory incremented (.zp b) s

/-- INC zero page,X (R170). -/
def execIncZpx (b : Byte) (s : State) : Outcome := modifyMemory incremented (.zpx b) s

/-- INC absolute (R170). -/
def execIncAbs (w : Addr) (s : State) : Outcome := modifyMemory incremented (.abs w) s

/-- INC absolute,X (R170). -/
def execIncAbsx (w : Addr) (s : State) : Outcome := modifyMemory incremented (.absx w) s

/-- DEC zero page (R171). -/
def execDecZp (b : Byte) (s : State) : Outcome := modifyMemory decremented (.zp b) s

/-- DEC zero page,X (R171). -/
def execDecZpx (b : Byte) (s : State) : Outcome := modifyMemory decremented (.zpx b) s

/-- DEC absolute (R171). -/
def execDecAbs (w : Addr) (s : State) : Outcome := modifyMemory decremented (.abs w) s

/-- DEC absolute,X (R171). -/
def execDecAbsx (w : Addr) (s : State) : Outcome := modifyMemory decremented (.absx w) s

/-- INX (R172). -/
def execInx (s : State) : Outcome := implied incrementX s

/-- INY (R173). -/
def execIny (s : State) : Outcome := implied incrementY s

/-- DEX (R174). -/
def execDex (s : State) : Outcome := implied decrementX s

/-- DEY (R175). -/
def execDey (s : State) : Outcome := implied decrementY s

end Sys2Proof.Machine
end

