-- ==== Sys2Proof/Machine/ControlFlow.lean ====
section
/-! DEFINITION. Jumps, calls, returns and branches: JMP, JSR, RTS and the eight branches (46_control_flow.md R200 to R211). -/

namespace Sys2Proof.Machine

/-- `cond = (P.C = 0)` (46_control_flow.md R204). -/
def condBcc (s : State) : Bool := !s.flag .C

/-- `cond = (P.C = 1)` (46_control_flow.md R205). -/
def condBcs (s : State) : Bool := s.flag .C

/-- `cond = (P.Z = 1)` (46_control_flow.md R206). -/
def condBeq (s : State) : Bool := s.flag .Z

/-- `cond = (P.Z = 0)` (46_control_flow.md R207). -/
def condBne (s : State) : Bool := !s.flag .Z

/-- `cond = (P.N = 1)` (46_control_flow.md R208). -/
def condBmi (s : State) : Bool := s.flag .N

/-- `cond = (P.N = 0)` (46_control_flow.md R209). -/
def condBpl (s : State) : Bool := !s.flag .N

/-- `cond = (P.V = 0)` (46_control_flow.md R210). -/
def condBvc (s : State) : Bool := !s.flag .V

/-- `cond = (P.V = 1)` (46_control_flow.md R211). -/
def condBvs (s : State) : Bool := s.flag .V

/-- JMP absolute: `pc <- ea` (R200). -/
def execJmpAbs (w : Addr) (s : State) : Outcome := .next (s.jump w)

/-- JMP (absolute): `pc <- ea`, read through the pointer (R200, 41_addressing_modes.md R133). -/
def execJmpInd (w : Addr) (s : State) : Outcome := .next (s.jump (indirectTarget s w))

/-- JSR: `Push16(u16(pc0 + 2)); pc <- ea` (R201). -/
def execJsr (w : Addr) (s : State) : Outcome := .next ((s.push16 (s.pc + 2)).jump w)

/-- RTS: `w <- Pull16(); pc <- u16(w + 1)` (R202). -/
def execRts (s : State) : Outcome := .next (s.popped16.jump (s.pulled16 + 1))

/-- BCC (R204). -/
def execBcc (d : Byte) (s : State) : Outcome := branchIf condBcc d s

/-- BCS (R205). -/
def execBcs (d : Byte) (s : State) : Outcome := branchIf condBcs d s

/-- BEQ (R206). -/
def execBeq (d : Byte) (s : State) : Outcome := branchIf condBeq d s

/-- BNE (R207). -/
def execBne (d : Byte) (s : State) : Outcome := branchIf condBne d s

/-- BMI (R208). -/
def execBmi (d : Byte) (s : State) : Outcome := branchIf condBmi d s

/-- BPL (R209). -/
def execBpl (d : Byte) (s : State) : Outcome := branchIf condBpl d s

/-- BVC (R210). -/
def execBvc (d : Byte) (s : State) : Outcome := branchIf condBvc d s

/-- BVS (R211). -/
def execBvs (d : Byte) (s : State) : Outcome := branchIf condBvs d s

end Sys2Proof.Machine
end

