-- ==== Sys2Proof/Machine/FlagSystem.lean ====
section
/-! DEFINITION. Flag instructions, NOP, BRK and RTI (47_flag_system.md R220 to R227, R232, R233). -/

namespace Sys2Proof.Machine

/-- CLC: `P.C <- 0` (R220). -/
def execClc (s : State) : Outcome := implied (·.setFlag .C false) s

/-- SEC: `P.C <- 1` (R221). -/
def execSec (s : State) : Outcome := implied (·.setFlag .C true) s

/-- CLI: `P.I <- 0` (R222). -/
def execCli (s : State) : Outcome := implied (·.setFlag .I false) s

/-- SEI: `P.I <- 1` (R223). -/
def execSei (s : State) : Outcome := implied (·.setFlag .I true) s

/-- CLD: `P.D <- 0` (R224). -/
def execCld (s : State) : Outcome := implied (·.setFlag .D false) s

/-- SED: `P.D <- 1` (R225). -/
def execSed (s : State) : Outcome := implied (·.setFlag .D true) s

/-- CLV: `P.V <- 0` (R226). -/
def execClv (s : State) : Outcome := implied (·.setFlag .V false) s

/-- NOP: nothing but PC changes (R227). -/
def execNop (s : State) : Outcome := implied id s

/-- BRK: the trap entry that halts; PC stays (R232, 40_execution_engine.md R105). -/
def execBrk (s : State) : Outcome := .next s.breakEntry

/-- RTI: P (less bits 5 and 4) and PC from the stack (R233). -/
def execRti (s : State) : Outcome := .next s.trapReturn

end Sys2Proof.Machine
end

