-- ==== Sys2Proof/Machine/LoadStore.lean ====
section
/-! DEFINITION. Loads and stores: LDA, LDX, LDY, STA, STX, STY (42_load_store.md R140 to R145). -/

namespace Sys2Proof.Machine

/-- `A <- M; SetZN(A)` (42_load_store.md R140). -/
def loadA (m : Byte) (s : State) : State := { s with a := m }.setZN m

/-- `X <- M; SetZN(X)` (42_load_store.md R141). -/
def loadX (m : Byte) (s : State) : State := { s with x := m }.setZN m

/-- `Y <- M; SetZN(Y)` (42_load_store.md R142). -/
def loadY (m : Byte) (s : State) : State := { s with y := m }.setZN m

/-- LDA immediate (R140). -/
def execLdaImm (v : Byte) (s : State) : Outcome := valueImmediate loadA v s

/-- LDA zero page (R140). -/
def execLdaZp (b : Byte) (s : State) : Outcome := valueMemory loadA (.zp b) s

/-- LDA zero page,X (R140). -/
def execLdaZpx (b : Byte) (s : State) : Outcome := valueMemory loadA (.zpx b) s

/-- LDA absolute (R140). -/
def execLdaAbs (w : Addr) (s : State) : Outcome := valueMemory loadA (.abs w) s

/-- LDA absolute,X (R140). -/
def execLdaAbsx (w : Addr) (s : State) : Outcome := valueMemory loadA (.absx w) s

/-- LDA absolute,Y (R140). -/
def execLdaAbsy (w : Addr) (s : State) : Outcome := valueMemory loadA (.absy w) s

/-- LDA (zero page,X) (R140). -/
def execLdaIndx (b : Byte) (s : State) : Outcome := valueMemory loadA (.indx b) s

/-- LDA (zero page),Y (R140). -/
def execLdaIndy (b : Byte) (s : State) : Outcome := valueMemory loadA (.indy b) s

/-- LDX immediate (R141). -/
def execLdxImm (v : Byte) (s : State) : Outcome := valueImmediate loadX v s

/-- LDX zero page (R141). -/
def execLdxZp (b : Byte) (s : State) : Outcome := valueMemory loadX (.zp b) s

/-- LDX zero page,Y (R141). -/
def execLdxZpy (b : Byte) (s : State) : Outcome := valueMemory loadX (.zpy b) s

/-- LDX absolute (R141). -/
def execLdxAbs (w : Addr) (s : State) : Outcome := valueMemory loadX (.abs w) s

/-- LDX absolute,Y (R141). -/
def execLdxAbsy (w : Addr) (s : State) : Outcome := valueMemory loadX (.absy w) s

/-- LDY immediate (R142). -/
def execLdyImm (v : Byte) (s : State) : Outcome := valueImmediate loadY v s

/-- LDY zero page (R142). -/
def execLdyZp (b : Byte) (s : State) : Outcome := valueMemory loadY (.zp b) s

/-- LDY zero page,X (R142). -/
def execLdyZpx (b : Byte) (s : State) : Outcome := valueMemory loadY (.zpx b) s

/-- LDY absolute (R142). -/
def execLdyAbs (w : Addr) (s : State) : Outcome := valueMemory loadY (.abs w) s

/-- LDY absolute,X (R142). -/
def execLdyAbsx (w : Addr) (s : State) : Outcome := valueMemory loadY (.absx w) s

/-- STA zero page (R143). -/
def execStaZp (b : Byte) (s : State) : Outcome := storeMemory s.a (.zp b) s

/-- STA zero page,X (R143). -/
def execStaZpx (b : Byte) (s : State) : Outcome := storeMemory s.a (.zpx b) s

/-- STA absolute (R143). -/
def execStaAbs (w : Addr) (s : State) : Outcome := storeMemory s.a (.abs w) s

/-- STA absolute,X (R143). -/
def execStaAbsx (w : Addr) (s : State) : Outcome := storeMemory s.a (.absx w) s

/-- STA absolute,Y (R143). -/
def execStaAbsy (w : Addr) (s : State) : Outcome := storeMemory s.a (.absy w) s

/-- STA (zero page,X) (R143). -/
def execStaIndx (b : Byte) (s : State) : Outcome := storeMemory s.a (.indx b) s

/-- STA (zero page),Y (R143). -/
def execStaIndy (b : Byte) (s : State) : Outcome := storeMemory s.a (.indy b) s

/-- STX zero page (R144). -/
def execStxZp (b : Byte) (s : State) : Outcome := storeMemory s.x (.zp b) s

/-- STX zero page,Y (R144). -/
def execStxZpy (b : Byte) (s : State) : Outcome := storeMemory s.x (.zpy b) s

/-- STX absolute (R144). -/
def execStxAbs (w : Addr) (s : State) : Outcome := storeMemory s.x (.abs w) s

/-- STY zero page (R145). -/
def execStyZp (b : Byte) (s : State) : Outcome := storeMemory s.y (.zp b) s

/-- STY zero page,X (R145). -/
def execStyZpx (b : Byte) (s : State) : Outcome := storeMemory s.y (.zpx b) s

/-- STY absolute (R145). -/
def execStyAbs (w : Addr) (s : State) : Outcome := storeMemory s.y (.abs w) s

end Sys2Proof.Machine
end

