-- ==== Sys2Proof/Machine/LogicShift.lean ====
section
/-! DEFINITION. Logic, bit test, shifts and rotates: AND, ORA, EOR, BIT, ASL, LSR, ROL, ROR (45_logic_shift.md R185 to R193). -/

namespace Sys2Proof.Machine

/-- `A <- A & M; SetZN(A)` (45_logic_shift.md R185). -/
def andA (m : Byte) (s : State) : State := { s with a := s.a &&& m }.setZN (s.a &&& m)

/-- `A <- A | M; SetZN(A)` (45_logic_shift.md R186). -/
def orA (m : Byte) (s : State) : State := { s with a := s.a ||| m }.setZN (s.a ||| m)

/-- `A <- A ^ M; SetZN(A)` (45_logic_shift.md R187). -/
def eorA (m : Byte) (s : State) : State := { s with a := s.a ^^^ m }.setZN (s.a ^^^ m)

/-- `P.Z <- ((A & M) = 0); P.N <- M[7]; P.V <- M[6]` (45_logic_shift.md R188). -/
def bitTest (m : Byte) (s : State) : State :=
  ((s.setFlag .Z (s.a &&& m == 0)).setFlag .N (m.getLsbD 7)).setFlag .V (m.getLsbD 6)

/-- A shift's effect on the flags: C takes the bit shifted out, Z and N come from the result
(45_logic_shift.md R193). -/
def shifted (t : Shifted) (s : State) : Modified := ⟨t.result, (s.setFlag .C t.out).setZN t.result⟩

/-- ASL of one byte (45_logic_shift.md R189). -/
def aslByte (v : Byte) (s : State) : Modified := shifted (shiftAsl v) s

/-- LSR of one byte (45_logic_shift.md R190). -/
def lsrByte (v : Byte) (s : State) : Modified := shifted (shiftLsr v) s

/-- ROL of one byte (45_logic_shift.md R191). -/
def rolByte (v : Byte) (s : State) : Modified := shifted (shiftRol (s.flag .C) v) s

/-- ROR of one byte (45_logic_shift.md R192). -/
def rorByte (v : Byte) (s : State) : Modified := shifted (shiftRor (s.flag .C) v) s

/-- AND immediate (R185). -/
def execAndImm (v : Byte) (s : State) : Outcome := valueImmediate andA v s

/-- AND zero page (R185). -/
def execAndZp (b : Byte) (s : State) : Outcome := valueMemory andA (.zp b) s

/-- AND zero page,X (R185). -/
def execAndZpx (b : Byte) (s : State) : Outcome := valueMemory andA (.zpx b) s

/-- AND absolute (R185). -/
def execAndAbs (w : Addr) (s : State) : Outcome := valueMemory andA (.abs w) s

/-- AND absolute,X (R185). -/
def execAndAbsx (w : Addr) (s : State) : Outcome := valueMemory andA (.absx w) s

/-- AND absolute,Y (R185). -/
def execAndAbsy (w : Addr) (s : State) : Outcome := valueMemory andA (.absy w) s

/-- AND (zero page,X) (R185). -/
def execAndIndx (b : Byte) (s : State) : Outcome := valueMemory andA (.indx b) s

/-- AND (zero page),Y (R185). -/
def execAndIndy (b : Byte) (s : State) : Outcome := valueMemory andA (.indy b) s

/-- ORA immediate (R186). -/
def execOraImm (v : Byte) (s : State) : Outcome := valueImmediate orA v s

/-- ORA zero page (R186). -/
def execOraZp (b : Byte) (s : State) : Outcome := valueMemory orA (.zp b) s

/-- ORA zero page,X (R186). -/
def execOraZpx (b : Byte) (s : State) : Outcome := valueMemory orA (.zpx b) s

/-- ORA absolute (R186). -/
def execOraAbs (w : Addr) (s : State) : Outcome := valueMemory orA (.abs w) s

/-- ORA absolute,X (R186). -/
def execOraAbsx (w : Addr) (s : State) : Outcome := valueMemory orA (.absx w) s

/-- ORA absolute,Y (R186). -/
def execOraAbsy (w : Addr) (s : State) : Outcome := valueMemory orA (.absy w) s

/-- ORA (zero page,X) (R186). -/
def execOraIndx (b : Byte) (s : State) : Outcome := valueMemory orA (.indx b) s

/-- ORA (zero page),Y (R186). -/
def execOraIndy (b : Byte) (s : State) : Outcome := valueMemory orA (.indy b) s

/-- EOR immediate (R187). -/
def execEorImm (v : Byte) (s : State) : Outcome := valueImmediate eorA v s

/-- EOR zero page (R187). -/
def execEorZp (b : Byte) (s : State) : Outcome := valueMemory eorA (.zp b) s

/-- EOR zero page,X (R187). -/
def execEorZpx (b : Byte) (s : State) : Outcome := valueMemory eorA (.zpx b) s

/-- EOR absolute (R187). -/
def execEorAbs (w : Addr) (s : State) : Outcome := valueMemory eorA (.abs w) s

/-- EOR absolute,X (R187). -/
def execEorAbsx (w : Addr) (s : State) : Outcome := valueMemory eorA (.absx w) s

/-- EOR absolute,Y (R187). -/
def execEorAbsy (w : Addr) (s : State) : Outcome := valueMemory eorA (.absy w) s

/-- EOR (zero page,X) (R187). -/
def execEorIndx (b : Byte) (s : State) : Outcome := valueMemory eorA (.indx b) s

/-- EOR (zero page),Y (R187). -/
def execEorIndy (b : Byte) (s : State) : Outcome := valueMemory eorA (.indy b) s

/-- BIT zero page (R188). -/
def execBitZp (b : Byte) (s : State) : Outcome := valueMemory bitTest (.zp b) s

/-- BIT absolute (R188). -/
def execBitAbs (w : Addr) (s : State) : Outcome := valueMemory bitTest (.abs w) s

/-- ASL accumulator (R189). -/
def execAslAcc (s : State) : Outcome := modifyAccumulator aslByte s

/-- ASL zero page (R189). -/
def execAslZp (b : Byte) (s : State) : Outcome := modifyMemory aslByte (.zp b) s

/-- ASL zero page,X (R189). -/
def execAslZpx (b : Byte) (s : State) : Outcome := modifyMemory aslByte (.zpx b) s

/-- ASL absolute (R189). -/
def execAslAbs (w : Addr) (s : State) : Outcome := modifyMemory aslByte (.abs w) s

/-- ASL absolute,X (R189). -/
def execAslAbsx (w : Addr) (s : State) : Outcome := modifyMemory aslByte (.absx w) s

/-- LSR accumulator (R190). -/
def execLsrAcc (s : State) : Outcome := modifyAccumulator lsrByte s

/-- LSR zero page (R190). -/
def execLsrZp (b : Byte) (s : State) : Outcome := modifyMemory lsrByte (.zp b) s

/-- LSR zero page,X (R190). -/
def execLsrZpx (b : Byte) (s : State) : Outcome := modifyMemory lsrByte (.zpx b) s

/-- LSR absolute (R190). -/
def execLsrAbs (w : Addr) (s : State) : Outcome := modifyMemory lsrByte (.abs w) s

/-- LSR absolute,X (R190). -/
def execLsrAbsx (w : Addr) (s : State) : Outcome := modifyMemory lsrByte (.absx w) s

/-- ROL accumulator (R191). -/
def execRolAcc (s : State) : Outcome := modifyAccumulator rolByte s

/-- ROL zero page (R191). -/
def execRolZp (b : Byte) (s : State) : Outcome := modifyMemory rolByte (.zp b) s

/-- ROL zero page,X (R191). -/
def execRolZpx (b : Byte) (s : State) : Outcome := modifyMemory rolByte (.zpx b) s

/-- ROL absolute (R191). -/
def execRolAbs (w : Addr) (s : State) : Outcome := modifyMemory rolByte (.abs w) s

/-- ROL absolute,X (R191). -/
def execRolAbsx (w : Addr) (s : State) : Outcome := modifyMemory rolByte (.absx w) s

/-- ROR accumulator (R192). -/
def execRorAcc (s : State) : Outcome := modifyAccumulator rorByte s

/-- ROR zero page (R192). -/
def execRorZp (b : Byte) (s : State) : Outcome := modifyMemory rorByte (.zp b) s

/-- ROR zero page,X (R192). -/
def execRorZpx (b : Byte) (s : State) : Outcome := modifyMemory rorByte (.zpx b) s

/-- ROR absolute (R192). -/
def execRorAbs (w : Addr) (s : State) : Outcome := modifyMemory rorByte (.abs w) s

/-- ROR absolute,X (R192). -/
def execRorAbsx (w : Addr) (s : State) : Outcome := modifyMemory rorByte (.absx w) s

end Sys2Proof.Machine
end

