-- ==== Sys2Proof/Machine/TransferStack.lean ====
section
/-! DEFINITION. Register transfers and stack instructions: TAX, TAY, TXA, TYA, TSX, TXS, PHA, PHP, PLA, PLP
(43_transfer_stack.md R150 to R155, R158 to R161). -/

namespace Sys2Proof.Machine

/-- `X <- A; SetZN(X)` (43_transfer_stack.md R150). -/
def transferAX (s : State) : State := { s with x := s.a }.setZN s.a

/-- `Y <- A; SetZN(Y)` (43_transfer_stack.md R151). -/
def transferAY (s : State) : State := { s with y := s.a }.setZN s.a

/-- `A <- X; SetZN(A)` (43_transfer_stack.md R152). -/
def transferXA (s : State) : State := { s with a := s.x }.setZN s.x

/-- `A <- Y; SetZN(A)` (43_transfer_stack.md R153). -/
def transferYA (s : State) : State := { s with a := s.y }.setZN s.y

/-- `X <- S; SetZN(X)` (43_transfer_stack.md R154). -/
def transferSX (s : State) : State := { s with x := s.sp }.setZN s.sp

/-- `S <- X`, no flag (43_transfer_stack.md R155). -/
def transferXS (s : State) : State := { s with sp := s.x }

/-- `Push(A)` (43_transfer_stack.md R158). -/
def pushA (s : State) : State := s.push s.a

/-- `Push(P | 0x30)`; P itself stays (43_transfer_stack.md R159). -/
def pushP (s : State) : State := s.push (statusImage s.p)

/-- `A <- Pull(); SetZN(A)` (43_transfer_stack.md R160). -/
def pullA (s : State) : State := { s.popped with a := s.pulled }.setZN s.pulled

/-- `v <- Pull(); P <- (v & 0xCF) | (P & 0x30)` (43_transfer_stack.md R161). -/
def pullP (s : State) : State := { s.popped with p := loadedStatus s.pulled s.p }

/-- TAX (R150). -/
def execTax (s : State) : Outcome := implied transferAX s

/-- TAY (R151). -/
def execTay (s : State) : Outcome := implied transferAY s

/-- TXA (R152). -/
def execTxa (s : State) : Outcome := implied transferXA s

/-- TYA (R153). -/
def execTya (s : State) : Outcome := implied transferYA s

/-- TSX (R154). -/
def execTsx (s : State) : Outcome := implied transferSX s

/-- TXS (R155). -/
def execTxs (s : State) : Outcome := implied transferXS s

/-- PHA (R158). -/
def execPha (s : State) : Outcome := implied pushA s

/-- PHP (R159). -/
def execPhp (s : State) : Outcome := implied pushP s

/-- PLA (R160). -/
def execPla (s : State) : Outcome := implied pullA s

/-- PLP (R161). -/
def execPlp (s : State) : Outcome := implied pullP s

end Sys2Proof.Machine
end

