-- ==== Sys2Proof/Machine/Fetch.lean ====
section
/-! DEFINITION. Fetching an instruction (40_execution_engine.md R101 to R103, R110): the opcode byte at PC, the table
lookup, the per-step refresh of cell 0x00FE, and then the operand bytes. -/

namespace Sys2Proof.Machine

/-- The per-step refresh of cell 0x00FE with a fresh draw; nothing under `RND_REFRESH = per_load`
(40_execution_engine.md R110). -/
def State.refreshRandom (s : State) : State :=
  match s.cfg.rndRefresh with
  | .perLoad => s
  | .perStep => { s.write 0x00FE (Config.draw s.draws) with draws := s.draws + 1 }

/-- The opcode byte at PC (40_execution_engine.md R101). -/
def State.opcodeByte (s : State) : Byte := s.read s.pc

/-- The operand bytes `b1` and `b2` that follow the opcode, at addresses that wrap (30_encoding.md R80). -/
def State.operandByte1 (s : State) : Byte := s.read (s.pc + 1)

/-- See `State.operandByte1`. -/
def State.operandByte2 (s : State) : Byte := s.read (s.pc + 2)

/-- What the fetch of a legal opcode hands to the handler: the instruction, and the state its operand bytes were read
from, after the refresh. -/
structure Fetched where
  instr : Instr
  state : State

/-- Fetch and decode: nothing for an illegal opcode, before any refresh (40_execution_engine.md R101, R102, R103;
90_conflicts.md C7, C11). Reads have no effect, so the bytes a shorter format has no use for may be read too
(20_memory.md R55; log 8). -/
def State.fetch (s : State) : Option Fetched :=
  match opcodeForm s.opcodeByte with
  | none => none
  | some form =>
    let t := s.refreshRandom
    some ⟨form.build t.operandByte1 t.operandByte2, t⟩

/-- The state with a table word's bytes stored at PC and the engine Running: what the very next fetch needs. -/
def State.placeInstruction (s : State) (nbits w : Nat) : State :=
  let v := w % 2 ^ nbits
  let t := ((s.write s.pc (tableByte v 0)).write (s.pc + 1) (tableByte v 1)).write (s.pc + 2) (tableByte v 2)
  { t with engine := .running }

end Sys2Proof.Machine
end

