-- ==== Sys2Proof/Machine/Step.lean ====
section
/-! DEFINITION. One step of the engine (40_execution_engine.md R101 to R107) and the placing of an instruction where
the next step fetches it. -/

namespace Sys2Proof.Machine

/-- `step()` (40_execution_engine.md R103): in Running, fetch, then run the instruction, or go to Faulted when the
opcode is illegal (R102). Outside Running there is no step (R107; log 6). -/
def step (s : State) : Host.Outcome State Fault Refusal :=
  match s.engine with
  | .halted => .fault .stepWhileHalted
  | .faulted reason => .fault (.stepWhileFaulted reason)
  | .running =>
    match s.fetch with
    | none => .next (s.raiseUnimplemented s.opcodeByte)
    | some f => exec f.instr f.state

/-- The state with an instruction of the opcode table stored where the next step fetches it, and the engine Running
(log 4). -/
def State.withFetchWord (s : State) (nbits w : Nat) : State := s.placeInstruction nbits w

end Sys2Proof.Machine
end

