-- ==== Sys2Proof/Machine/Outputs.lean ====
section
/-! DEFINITION. The outputs of a step that no state depends on: the resolver's outputs (41_addressing_modes.md R120,
R135), the observer event (40_execution_engine.md R104) and the cycle count (70_reset_and_hazards.md R280, R281).
They are functions of the state before the step (log 11). -/

namespace Sys2Proof.Machine

/-- Whether the instruction is a branch whose condition holds (46_control_flow.md R204 to R211). -/
def branchTaken (s : State) : Mnemonic → Bool
  | .bcc => condBcc s
  | .bcs => condBcs s
  | .beq => condBeq s
  | .bne => condBne s
  | .bmi => condBmi s
  | .bpl => condBpl s
  | .bvc => condBvc s
  | .bvs => condBvs s
  | .lda | .ldx | .ldy | .sta | .stx | .sty | .tax | .tay | .txa | .tya | .tsx | .txs | .pha | .php | .pla | .plp
  | .adc | .sbc | .cmp | .cpx | .cpy | .inc | .dec | .inx | .iny | .dex | .dey | .and | .ora | .eor | .bit
  | .asl | .lsr | .rol | .ror | .jmp | .jsr | .rts | .clc | .sec | .cli | .sei | .cld | .sed | .clv | .nop | .brk
  | .rti => false

/-- What the resolver produces, `(ea, length, page_crossed)` (41_addressing_modes.md R120). -/
structure Resolved where
  ea : Option Addr
  length : Nat
  pageCrossed : Bool
  deriving DecidableEq, Repr

/-- The resolver (41_addressing_modes.md R120 to R135). -/
def resolve (i : Instr) (s : State) : Resolved where
  ea := operandAddress s i.operand
  length := i.length
  pageCrossed := operandPageCrossed s (branchTaken s i.mnemonic) i.operand

/-- The third component of the observer event (40_execution_engine.md R104). -/
inductive Observed where
  | none
  | value (m : Byte)
  | address (ea : Addr)
  | offset (d : Int)
  deriving DecidableEq, Repr

/-- The observer event `(pc_before, opcode, resolved_operand)` (40_execution_engine.md R104). -/
structure Event where
  pcBefore : Addr
  opcode : Byte
  operand : Observed
  deriving DecidableEq, Repr

/-- The resolved operand of an instruction at a state: the operand byte for a `value` handler, the effective address
for an `address` or `rmw` handler, the signed offset for a branch, none for Implied and Accumulator
(40_execution_engine.md R104, decision D20). -/
def observedOperand (i : Instr) (s : State) : Observed :=
  match i.mnemonic.kind, i.operand with
  | _, .implied | _, .accumulator => .none
  | _, .immediate v => .value v
  | .value, .mem o => .value (s.read (effectiveAddress s o))
  | .address, .mem o | .rmw, .mem o | .branch, .mem o | .none, .mem o => .address (effectiveAddress s o)
  | _, .indirect w => .address (indirectTarget s w)
  | _, .relative d => .offset d.toInt

/-- The event a step from this state emits: one for every step that does not fault, the BRK step included; none for an
illegal opcode and none outside Running (40_execution_engine.md R102, R104, R107, decision D21). -/
def observe (s : State) : Option Event :=
  match s.engine with
  | .halted | .faulted _ => none
  | .running =>
    match s.fetch with
    | none => none
    | some f => some ⟨s.pc, s.opcodeByte, observedOperand f.instr f.state⟩

/-- Whether a page crossing costs a cycle: a `value` read in AbsoluteX, AbsoluteY or IndirectIndexed mode
(70_reset_and_hazards.md R281). -/
def chargesPageCross (i : Instr) : Bool :=
  i.mnemonic.kind == .value && (i.mode == .absx || i.mode == .absy || i.mode == .indy)

/-- The cycle count of an instruction at a state, where one is reported (70_reset_and_hazards.md R281). -/
def cycles (i : Instr) (s : State) : Nat :=
  let taken := branchTaken s i.mnemonic
  let crossed := (resolve i s).pageCrossed
  i.descriptor.baseCycles + (crossed && chargesPageCross i).toNat + taken.toNat + (taken && crossed).toNat

/-- The cycle count a step from this state reports: none where no instruction retires. -/
def stepCycles (s : State) : Option Nat :=
  match s.engine with
  | .halted | .faulted _ => none
  | .running => s.fetch.map fun f => cycles f.instr f.state

end Sys2Proof.Machine
end

