-- ==== Sys2Proof/Machine/HostInterface.lean ====
section
/-! DEFINITION. What the host does to a machine between steps (60_exceptions.md R255): load, which is the reset
(70_reset_and_hazards.md R270, R271), the key write (20_memory.md R58), run with a budget (40_execution_engine.md R106)
under an observer that acts at each event (20_memory.md R61), the display read (R59, 60_exceptions.md R257) and the
state export (R254). -/

namespace Sys2Proof.Machine

/-- The image copied byte by byte to rising addresses that wrap; later bytes win (70_reset_and_hazards.md R271,
decision D29). -/
def copyImage (m : Memory) (a : Addr) : List Byte → Memory
  | [] => m
  | b :: rest => copyImage (m.write a b) (a + 1) rest

/-- `load(origin, bytes)`: registers and memory zeroed, the image copied, the two seeds written after it, PC at the
origin, the engine Running (70_reset_and_hazards.md R271). The parameters stay; the generator gives one draw
(log 2, log 3, log 15). -/
def load (origin : Addr) (bytes : List Byte) (s : State) : State where
  a := 0x00
  x := 0x00
  y := 0x00
  sp := 0x00
  p := 0x00
  pc := origin
  engine := .running
  mem := ((copyImage Memory.zeroed origin bytes).write 0x00FE (Config.draw s.draws)).write 0x00FF s.cfg.keyDefault
  cfg := s.cfg
  draws := s.draws + 1

/-- The host's key write between steps: any byte to 0x00FF, nothing else (20_memory.md R58, 60_exceptions.md R255). -/
def hostKeyWrite (key : Byte) (s : State) : State := s.write 0x00FF key

/-- What the host may do to a machine at a point between two steps of a run (60_exceptions.md R255). What it may read
there (memory, the display, the export, the event) changes nothing and is no action. -/
inductive HostAction where
  | load (origin : Addr) (bytes : List Byte)
  | writeKey (key : Byte)
  deriving DecidableEq, Repr

/-- The effect of a host action (60_exceptions.md R255). -/
def HostAction.apply : HostAction → State → State
  | .load origin bytes => Machine.load origin bytes
  | .writeKey key => hostKeyWrite key

/-- Host actions, one after the other. -/
def hostActions : List HostAction → State → State
  | [], s => s
  | action :: rest, s => hostActions rest (action.apply s)

/-- The observer of a run (40_execution_engine.md R104): from the number of events before in the run, the event, and the
machine after the step, which it may read, to what the host does there (20_memory.md R61, 60_exceptions.md R255; log 9).
Every sequence of host writes of a run is that of some observer. -/
abbrev Observer := Nat → Event → State → List HostAction

/-- The observer that does nothing. -/
def Observer.silent : Observer := fun _ _ _ => []

/-- The same observer in the rest of a run, after `k` events. -/
def Observer.after (k : Nat) (obs : Observer) : Observer := fun n => obs (k + n)

/-- The between-step point after a step: the host acts at the event; a faulting fetch has none, and no point after it
(40_execution_engine.md R102, R104, 60_exceptions.md R255). -/
def Observer.respond (obs : Observer) : Option Event → State → State
  | none, t => t
  | some event, t => hostActions (obs 0 event t) t

/-- An observer that writes nothing but the key cell 0x00FF (20_memory.md R61). -/
def Observer.keysOnly (obs : Observer) : Prop :=
  ∀ n event t, ∀ action ∈ obs n event t, ∃ key, action = .writeKey key

/-- How a run ends (40_execution_engine.md R106). -/
inductive RunResult where
  | halted
  | faulted (reason : FaultReason)
  | stepBudgetExhausted
  deriving DecidableEq, Repr

/-- The result of a run that ends in this engine state (40_execution_engine.md R106). -/
def runResult : Engine → RunResult
  | .halted => .halted
  | .faulted reason => .faulted reason
  | .running => .stepBudgetExhausted

/-- The state after `run(budget)`: steps while the engine is Running and the budget lasts, and between them what the
observer does (40_execution_engine.md R106, 20_memory.md R61). -/
def runState : Nat → Observer → State → State
  | 0, _, s => s
  | budget + 1, obs, s =>
    match step s with
    | .next t => runState budget (obs.after 1) (obs.respond (observe s) t)
    | .fault _ | .refused _ => s

/-- `run(budget)` (40_execution_engine.md R106): the result and the state. -/
def run (budget : Nat) (obs : Observer) (s : State) : RunResult × State :=
  let t := runState budget obs s
  (runResult t.engine, t)

/-- The n-th of the 1024 display bytes, cell 0x0200 + n (20_memory.md R59). -/
def displayByte (s : State) (n : Fin 1024) : Byte := s.read (0x0200 + BitVec.ofNat 16 n)

/-- The sixteen colours of the palette in index order (60_exceptions.md R257). -/
inductive Colour where
  | black | white | red | cyan | purple | green | blue | yellow
  | orange | brown | lightRed | darkGrey | grey | lightGreen | lightBlue | lightGrey
  deriving DecidableEq, Repr

/-- The palette, in index order (60_exceptions.md R257). -/
def palette : Vector Colour 16 :=
  #v[.black, .white, .red, .cyan, .purple, .green, .blue, .yellow,
     .orange, .brown, .lightRed, .darkGrey, .grey, .lightGreen, .lightBlue, .lightGrey]

/-- The colour of a colour index (60_exceptions.md R257). -/
def paletteColour (index : BitVec 4) : Colour := palette[index.toNat]

/-- The colour the host shows for a display byte: its low nibble selects it (60_exceptions.md R257; log 10). -/
def displayColour (s : State) (n : Fin 1024) : Colour := paletteColour ((displayByte s n).extractLsb' 0 4)

/-- The state export: all registers, the engine state and the full memory image (00_scope.md R14,
60_exceptions.md R254, R255). -/
structure Snapshot where
  a : Byte
  x : Byte
  y : Byte
  sp : Byte
  p : Byte
  pc : Addr
  engine : Engine
  memory : List Byte
  deriving DecidableEq, Repr

/-- Taking the export: a read-only snapshot (60_exceptions.md R254). -/
def exportState (s : State) : Snapshot where
  a := s.a
  x := s.x
  y := s.y
  sp := s.sp
  p := s.p
  pc := s.pc
  engine := s.engine
  memory := (List.range 0x10000).map fun k => s.read (BitVec.ofNat 16 k)

end Sys2Proof.Machine
end

