-- ==== Sys2Proof/Safety.lean ====
section
/-! DEFINITION. What counts as a good state and a safe run, in the terms the statements use. -/

namespace Sys2Proof.Machine

/-- P.B is 1 exactly in a Halted machine (10_state.md R32), and bit 5 of P is 0 (10_state.md R33). -/
def State.statusBitsInv (s : State) : Prop :=
  (s.flag .B = true ↔ s.engine = .halted) ∧ s.flag .five = false

/-- Memory is in its canonical form (log 5). -/
def State.memoryInv (s : State) : Prop := s.mem.wf

/-- The machine has not fetched an illegal opcode (40_execution_engine.md R100). -/
def State.notFaulted (s : State) : Prop := ∀ reason, s.engine ≠ .faulted reason

/-- A safe run of `budget` steps: whatever the host writes to the key cell at its events, the run does not end in
Faulted, the machine's only fault (60_exceptions.md R240, R255). Reaching Halted is the normal end (R243). -/
def SafeRun (budget : Nat) (s : State) : Prop :=
  ∀ obs : Observer, obs.keysOnly → (runState budget obs s).notFaulted

end Sys2Proof.Machine
end

