-- ==== Sys2Proof/Certificates/Slice0/Obligations.lean ====
section
/-! DEFINITION. The statements for the provers, and the words they are written in. Every statement is about all
operands and all states that meet its hypotheses; none is about a program. -/

namespace Sys2Proof.Claims

open Sys2Proof.Machine

/-- The four registers of 8 bits that are not the status register (10_state.md R20). -/
inductive Reg where
  | A | X | Y | S
  deriving DecidableEq, Repr

/-- The value of a register. -/
def regValue (s : State) : Reg → Byte
  | .A => s.a
  | .X => s.x
  | .Y => s.y
  | .S => s.sp

/-- From `s` to `t`: only the named registers, flags and memory cells may change; the parameters and the count of draws,
which are the model's own fields (log 3, log 2), stay. It says nothing of PC or of the engine. -/
def Unchanged (regs : List Reg) (flags : List Flag) (cells : List Addr) (s t : State) : Prop :=
  (∀ r, r ∉ regs → regValue t r = regValue s r) ∧
  (∀ f, f ∉ flags → t.flag f = s.flag f) ∧
  (∀ c, c ∉ cells → t.read c = s.read c) ∧
  t.cfg = s.cfg ∧ t.draws = s.draws

/-- The frame of an instruction: as `Unchanged`, and the engine state stays too. -/
def Frame (regs : List Reg) (flags : List Flag) (cells : List Addr) (s t : State) : Prop :=
  Unchanged regs flags cells s t ∧ t.engine = s.engine

/-- `SetZN(v)` has happened (00_scope.md R8). -/
def HasZN (v : Byte) (t : State) : Prop := t.flag .Z = decide (v = 0) ∧ t.flag .N = v.getLsbD 7

/-- PC has advanced by the length of the instruction (40_execution_engine.md R103). -/
def NextPc (i : Instr) (s t : State) : Prop := t.pc = s.pc + BitVec.ofNat 16 i.length

/-- The instruction completes with the register holding `v`, Z and N from it, PC advanced and nothing else changed. -/
def SetsRegister (i : Instr) (r : Reg) (v : Byte) (s : State) : Prop :=
  ∃ t, exec i s = .next t ∧ regValue t r = v ∧ HasZN v t ∧ NextPc i s t ∧ Frame [r] [.Z, .N] [] s t

/-- The instruction completes with the byte `v` stored at its effective address, PC advanced and nothing else
changed. -/
def StoresAtAddress (i : Instr) (v : Byte) (s : State) : Prop :=
  ∃ ea t, operandAddress s i.operand = some ea ∧ exec i s = .next t ∧ t.read ea = v ∧ NextPc i s t ∧
    Frame [] [] [ea] s t

/-- The compare of a register value `r` with the operand value `m` (44_arithmetic.md R167). -/
def Compares (i : Instr) (r : Byte) (s : State) : Prop :=
  ∃ m t, operandValue s i.operand = some m ∧ exec i s = .next t ∧
    t.flag .C = decide (m.toNat ≤ r.toNat) ∧ t.flag .Z = decide (r = m) ∧ t.flag .N = (r - m).getLsbD 7 ∧
    NextPc i s t ∧ Frame [] [.C, .Z, .N] [] s t

/-- A read-modify-write of memory: the cell at the effective address goes from `v` to `f v`, Z and N come from the
result, and the named further flags may change. -/
def ModifiesMemory (i : Instr) (f : Byte → Byte) (flags : List Flag) (more : Byte → State → Prop) (s : State) : Prop :=
  ∃ ea t, operandAddress s i.operand = some ea ∧ exec i s = .next t ∧ t.read ea = f (s.read ea) ∧
    HasZN (f (s.read ea)) t ∧ more (s.read ea) t ∧ NextPc i s t ∧ Frame [] ([.Z, .N] ++ flags) [ea] s t

/-- A shift or rotate in every mode (45_logic_shift.md R193): in Accumulator mode of A and no memory, in the memory
modes of the cell at the effective address and not of A; C takes the bit shifted out. -/
def Shifts (i : Instr) (f : Byte → Byte) (out : Byte → Bool) (s : State) : Prop :=
  (i.mode = .acc → ∃ t, exec i s = .next t ∧ t.a = f s.a ∧ HasZN (f s.a) t ∧ t.flag .C = out s.a ∧ NextPc i s t ∧
    Frame [.A] [.Z, .N, .C] [] s t) ∧
  (i.mode ≠ .acc → ModifiesMemory i f [.C] (fun v t => t.flag .C = out v) s)

/-- The instruction completes with one flag written and PC advanced. -/
def WritesOneFlag (i : Instr) (f : Flag) (b : Bool) (s : State) : Prop :=
  ∃ t, exec i s = .next t ∧ t.flag f = b ∧ NextPc i s t ∧ Frame [] [f] [] s t

/-- A branch completes: to `pc0 + 2 + sext_16(b1)` when the flag has the wanted value, else to the next instruction
(46_control_flow.md R203). -/
def Branches (i : Instr) (d : Byte) (f : Flag) (wanted : Bool) (s : State) : Prop :=
  ∃ t, exec i s = .next t ∧
    t.pc = (if s.flag f = wanted then s.pc + 2 + d.signExtend 16 else s.pc + 2) ∧ Frame [] [] [] s t

/-- 30_encoding.md R88: the 105 illegal bytes. -/
def illegalBytes : List Byte :=
  [0x02, 0x03, 0x04, 0x07, 0x0B, 0x0C, 0x0F, 0x12, 0x13, 0x14, 0x17, 0x1A, 0x1B, 0x1C, 0x1F,
   0x22, 0x23, 0x27, 0x2B, 0x2F, 0x32, 0x33, 0x34, 0x37, 0x3A, 0x3B, 0x3C, 0x3F, 0x42, 0x43,
   0x44, 0x47, 0x4B, 0x4F, 0x52, 0x53, 0x54, 0x57, 0x5A, 0x5B, 0x5C, 0x5F, 0x62, 0x63, 0x64,
   0x67, 0x6B, 0x6F, 0x72, 0x73, 0x74, 0x77, 0x7A, 0x7B, 0x7C, 0x7F, 0x80, 0x82, 0x83, 0x87,
   0x89, 0x8B, 0x8F, 0x92, 0x93, 0x97, 0x9B, 0x9C, 0x9E, 0x9F, 0xA3, 0xA7, 0xAB, 0xAF, 0xB2,
   0xB3, 0xB7, 0xBB, 0xBF, 0xC2, 0xC3, 0xC7, 0xCB, 0xCF, 0xD2, 0xD3, 0xD4, 0xD7, 0xDA, 0xDB,
   0xDC, 0xDF, 0xE2, 0xE3, 0xE7, 0xEB, 0xEF, 0xF2, 0xF3, 0xF4, 0xF7, 0xFA, 0xFB, 0xFC, 0xFF]

/-- 30_encoding.md R87, and the encodings of every instruction rule: opcode byte and mode by mnemonic. -/
def encodingsOf : Mnemonic → List (Byte × Mode)
  | .lda => [(0xA9, .imm), (0xA5, .zp), (0xB5, .zpx), (0xAD, .abs), (0xBD, .absx),
      (0xB9, .absy), (0xA1, .indx), (0xB1, .indy)]
  | .ldx => [(0xA2, .imm), (0xA6, .zp), (0xB6, .zpy), (0xAE, .abs), (0xBE, .absy)]
  | .ldy => [(0xA0, .imm), (0xA4, .zp), (0xB4, .zpx), (0xAC, .abs), (0xBC, .absx)]
  | .sta => [(0x85, .zp), (0x95, .zpx), (0x8D, .abs), (0x9D, .absx), (0x99, .absy), (0x81, .indx), (0x91, .indy)]
  | .stx => [(0x86, .zp), (0x96, .zpy), (0x8E, .abs)]
  | .sty => [(0x84, .zp), (0x94, .zpx), (0x8C, .abs)]
  | .tax => [(0xAA, .imp)]
  | .tay => [(0xA8, .imp)]
  | .txa => [(0x8A, .imp)]
  | .tya => [(0x98, .imp)]
  | .tsx => [(0xBA, .imp)]
  | .txs => [(0x9A, .imp)]
  | .pha => [(0x48, .imp)]
  | .php => [(0x08, .imp)]
  | .pla => [(0x68, .imp)]
  | .plp => [(0x28, .imp)]
  | .adc => [(0x69, .imm), (0x65, .zp), (0x75, .zpx), (0x6D, .abs), (0x7D, .absx),
      (0x79, .absy), (0x61, .indx), (0x71, .indy)]
  | .sbc => [(0xE9, .imm), (0xE5, .zp), (0xF5, .zpx), (0xED, .abs), (0xFD, .absx),
      (0xF9, .absy), (0xE1, .indx), (0xF1, .indy)]
  | .cmp => [(0xC9, .imm), (0xC5, .zp), (0xD5, .zpx), (0xCD, .abs), (0xDD, .absx),
      (0xD9, .absy), (0xC1, .indx), (0xD1, .indy)]
  | .cpx => [(0xE0, .imm), (0xE4, .zp), (0xEC, .abs)]
  | .cpy => [(0xC0, .imm), (0xC4, .zp), (0xCC, .abs)]
  | .inc => [(0xE6, .zp), (0xF6, .zpx), (0xEE, .abs), (0xFE, .absx)]
  | .dec => [(0xC6, .zp), (0xD6, .zpx), (0xCE, .abs), (0xDE, .absx)]
  | .inx => [(0xE8, .imp)]
  | .iny => [(0xC8, .imp)]
  | .dex => [(0xCA, .imp)]
  | .dey => [(0x88, .imp)]
  | .and => [(0x29, .imm), (0x25, .zp), (0x35, .zpx), (0x2D, .abs), (0x3D, .absx),
      (0x39, .absy), (0x21, .indx), (0x31, .indy)]
  | .ora => [(0x09, .imm), (0x05, .zp), (0x15, .zpx), (0x0D, .abs), (0x1D, .absx),
      (0x19, .absy), (0x01, .indx), (0x11, .indy)]
  | .eor => [(0x49, .imm), (0x45, .zp), (0x55, .zpx), (0x4D, .abs), (0x5D, .absx),
      (0x59, .absy), (0x41, .indx), (0x51, .indy)]
  | .bit => [(0x24, .zp), (0x2C, .abs)]
  | .asl => [(0x0A, .acc), (0x06, .zp), (0x16, .zpx), (0x0E, .abs), (0x1E, .absx)]
  | .lsr => [(0x4A, .acc), (0x46, .zp), (0x56, .zpx), (0x4E, .abs), (0x5E, .absx)]
  | .rol => [(0x2A, .acc), (0x26, .zp), (0x36, .zpx), (0x2E, .abs), (0x3E, .absx)]
  | .ror => [(0x6A, .acc), (0x66, .zp), (0x76, .zpx), (0x6E, .abs), (0x7E, .absx)]
  | .jmp => [(0x4C, .abs), (0x6C, .ind)]
  | .jsr => [(0x20, .abs)]
  | .rts => [(0x60, .imp)]
  | .bcc => [(0x90, .rel)]
  | .bcs => [(0xB0, .rel)]
  | .beq => [(0xF0, .rel)]
  | .bne => [(0xD0, .rel)]
  | .bmi => [(0x30, .rel)]
  | .bpl => [(0x10, .rel)]
  | .bvc => [(0x50, .rel)]
  | .bvs => [(0x70, .rel)]
  | .clc => [(0x18, .imp)]
  | .sec => [(0x38, .imp)]
  | .cli => [(0x58, .imp)]
  | .sei => [(0x78, .imp)]
  | .cld => [(0xD8, .imp)]
  | .sed => [(0xF8, .imp)]
  | .clv => [(0xB8, .imp)]
  | .nop => [(0xEA, .imp)]
  | .brk => [(0x00, .imp)]
  | .rti => [(0x40, .imp)]

/-- The encodings of some mnemonics, as their rules and 30_encoding.md R87 list them: an instruction is of a mnemonic
exactly when its opcode byte and mode are listed for it. -/
def HasEncodings (ns : List Mnemonic) : Prop :=
  ∀ n ∈ ns, ∀ i : Instr, i.mnemonic = n ↔ (i.opcode, i.mode) ∈ encodingsOf n

/-- 10_state.md R36: the flags each mnemonic writes. -/
def flagsWritten : Mnemonic → List Flag
  | .adc | .sbc => [.N, .V, .Z, .C]
  | .and | .ora | .eor => [.N, .Z]
  | .asl | .lsr | .rol | .ror => [.N, .Z, .C]
  | .bit => [.N, .V, .Z]
  | .cmp | .cpx | .cpy => [.N, .Z, .C]
  | .inc | .dec | .inx | .iny | .dex | .dey => [.N, .Z]
  | .lda | .ldx | .ldy | .tax | .tay | .txa | .tya | .tsx | .pla => [.N, .Z]
  | .plp | .rti => [.N, .V, .D, .I, .Z, .C]
  | .clc | .sec => [.C]
  | .cld | .sed => [.D]
  | .cli | .sei => [.I]
  | .clv => [.V]
  | .brk => [.B]
  | .sta | .stx | .sty | .txs | .pha | .php | .jmp | .jsr | .rts | .nop => []
  | .bcc | .bcs | .beq | .bne | .bmi | .bpl | .bvc | .bvs => []

/-- 10_state.md R20, the column "written by", for A, X, Y and S. -/
def registersWritten (i : Instr) : List Reg :=
  match i.mnemonic with
  | .lda | .txa | .tya | .adc | .sbc | .and | .ora | .eor => [.A]
  | .asl | .lsr | .rol | .ror => if i.mode = .acc then [.A] else []
  | .ldx | .tax | .tsx | .inx | .dex => [.X]
  | .ldy | .tay | .iny | .dey => [.Y]
  | .pla => [.A, .S]
  | .txs | .pha | .php | .plp | .jsr | .rts | .rti | .brk => [.S]
  | .sta | .stx | .sty | .cmp | .cpx | .cpy | .inc | .dec | .bit | .jmp | .nop => []
  | .bcc | .bcs | .beq | .bne | .bmi | .bpl | .bvc | .bvs => []
  | .clc | .sec | .cli | .sei | .cld | .sed | .clv => []

/-- The memory cells an instruction stores to at a state: the effective address of a store or of a read-modify-write
on memory, the stack cells of a push (10_state.md R23, 41_addressing_modes.md R134). -/
def storedCells (i : Instr) (s : State) : List Addr :=
  match i.mnemonic with
  | .sta | .stx | .sty | .inc | .dec | .asl | .lsr | .rol | .ror => (operandAddress s i.operand).toList
  | .pha | .php => [stackCell s.sp]
  | .jsr => [stackCell s.sp, stackCell (s.sp - 1)]
  | .brk => [stackCell s.sp, stackCell (s.sp - 1), stackCell (s.sp - 2)]
  | .lda | .ldx | .ldy | .tax | .tay | .txa | .tya | .tsx | .txs | .pla | .plp => []
  | .adc | .sbc | .cmp | .cpx | .cpy | .inx | .iny | .dex | .dey | .and | .ora | .eor | .bit => []
  | .jmp | .rts | .bcc | .bcs | .beq | .bne | .bmi | .bpl | .bvc | .bvs => []
  | .clc | .sec | .cli | .sei | .cld | .sed | .clv | .nop | .rti => []

/-- The byte an instruction stores to a cell it stores to (`storedCells`), from the state before it: the rules of the
stores (R143 to R145), of the read-modify-writes (R170, R171, R189 to R192) and of the pushes (R158, R159, R201,
R232). -/
def storedByte (i : Instr) (s : State) (c : Addr) : Byte :=
  match i.mnemonic with
  | .sta | .pha => s.a
  | .stx => s.x
  | .sty => s.y
  | .inc => s.read c + 1
  | .dec => s.read c - 1
  | .asl => s.read c <<< 1
  | .lsr => s.read c >>> 1
  | .rol => (s.read c <<< 1) ||| (if s.flag .C then 0x01 else 0x00)
  | .ror => (s.read c >>> 1) ||| (if s.flag .C then 0x80 else 0x00)
  | .php => s.p ||| 0x30
  | .jsr => if c = stackCell s.sp then hi8 (s.pc + 2) else lo8 (s.pc + 2)
  | .brk =>
    let pushed := s.pc + (if s.cfg.brkPcPushOffset = .two then 2 else 0)
    if c = stackCell s.sp then hi8 pushed else if c = stackCell (s.sp - 1) then lo8 pushed else s.p ||| 0x30
  | .lda | .ldx | .ldy | .tax | .tay | .txa | .tya | .tsx | .txs | .pla | .plp => s.read c
  | .adc | .sbc | .cmp | .cpx | .cpy | .inx | .iny | .dex | .dey | .and | .ora | .eor | .bit => s.read c
  | .jmp | .rts | .bcc | .bcs | .beq | .bne | .bmi | .bpl | .bvc | .bvs => s.read c
  | .clc | .sec | .cli | .sei | .cld | .sed | .clv | .nop | .rti => s.read c

/-- A cell after an instruction: the byte stored to it, else the byte it held. -/
def memoryAfter (i : Instr) (s : State) (c : Addr) : Byte :=
  if c ∈ storedCells i s then storedByte i s c else s.read c

/-- The cells that a pointer is read from (41_addressing_modes.md R130, R131, R133). -/
def pointerCells (s : State) : Operand → List Addr
  | .mem (.indx b) => [word16 0x00 (b + s.x), word16 0x00 (b + s.x + 1)]
  | .mem (.indy b) => [word16 0x00 b, word16 0x00 (b + 1)]
  | .indirect w => [w, if s.cfg.jmpIndPageWrap then word16 (hi8 w) (lo8 w + 1) else w + 1]
  | .mem (.zp _) | .mem (.zpx _) | .mem (.zpy _) | .mem (.abs _) | .mem (.absx _) | .mem (.absy _) => []
  | .implied | .accumulator | .immediate _ | .relative _ => []

/-- The cells whose bytes the execution of an instruction reads: its pointer, its operand value, the stack cells it
pulls (41_addressing_modes.md R134, 10_state.md R23). -/
def readCells (i : Instr) (s : State) : List Addr :=
  pointerCells s i.operand ++
  match i.mnemonic with
  | .lda | .ldx | .ldy | .adc | .sbc | .cmp | .cpx | .cpy | .and | .ora | .eor | .bit =>
    (operandAddress s i.operand).toList
  | .inc | .dec | .asl | .lsr | .rol | .ror => (operandAddress s i.operand).toList
  | .pla | .plp => [stackCell (s.sp + 1)]
  | .rts => [stackCell (s.sp + 1), stackCell (s.sp + 2)]
  | .rti => [stackCell (s.sp + 1), stackCell (s.sp + 2), stackCell (s.sp + 3)]
  | .sta | .stx | .sty | .tax | .tay | .txa | .tya | .tsx | .txs | .pha | .php | .inx | .iny | .dex | .dey => []
  | .jmp | .jsr | .bcc | .bcs | .beq | .bne | .bmi | .bpl | .bvc | .bvs => []
  | .clc | .sec | .cli | .sei | .cld | .sed | .clv | .nop | .brk => []

/-- The cells whose bytes a step reads: the opcode byte, the operand bytes of the format, and what the execution reads
(40_execution_engine.md R101, R103). Outside Running there is no step. -/
def stepReads (s : State) : List Addr :=
  match s.engine with
  | .halted | .faulted _ => []
  | .running =>
    s.pc :: match s.fetch with
      | none => []
      | some f => [s.pc + 1, s.pc + 2].take (f.instr.length - 1) ++ readCells f.instr f.state

/-- Two states that agree on everything but the key cell 0x00FF. -/
def AgreeButKey (s s' : State) : Prop :=
  s' = { s with mem := s'.mem } ∧ ∀ c, c ≠ 0x00FF → s'.read c = s.read c

/-- The signed value of a byte (44_arithmetic.md R177). -/
def signed (v : Byte) : Int := if v.toNat < 128 then v.toNat else (v.toNat : Int) - 256

/-- Two states that agree on everything but the two inert flags I and D (10_state.md R29, R31). -/
def AgreeButInert (s t : State) : Prop :=
  t = { s with p := t.p } ∧ ∀ f, f ≠ .I → f ≠ .D → t.flag f = s.flag f

/-- `n` pushes of the bytes `f 0`, `f 1`, … -/
def pushes (f : Nat → Byte) : Nat → State → State
  | 0, s => s
  | n + 1, s => (pushes f n s).push (f n)

/-- `n` executions of one instruction in a row, from a state on. -/
def execTimes (i : Instr) : Nat → State → Outcome
  | 0, s => .next s
  | n + 1, s =>
    match exec i s with
    | .next t => execTimes i n t
    | .fault r => .fault r
    | .refused r => .refused r

end Sys2Proof.Claims

open Sys2Proof Sys2Proof.Machine Sys2Proof.Claims

/-- Words written out bit by bit from the spec decode to their instructions (30_encoding.md R80, R83, R87;
95_test_vectors.md sections 1 and 2). -/
def Obligations.SpecWordsDecodeToTheirInstructions : Prop :=
  decode [0xA9, 0x01] = .ok (.ldaImm 0x01) [] ∧
  decode [0x8D, 0x00, 0x02] = .ok (.staAbs 0x0200) [] ∧
  decode [0xA2, 0x08, 0xCA] = .ok (.ldxImm 0x08) [0xCA] ∧
  decode [0xCA] = .ok .dex [] ∧
  decode [0x8E, 0x01, 0x02, 0x00] = .ok (.stxAbs 0x0201) [0x00] ∧
  decode [0xBA] = .ok .tsx [] ∧
  decode [0x48, 0x68] = .ok .pha [0x68] ∧
  decode [0xD8] = .ok .cld [] ∧
  decode [0xE0, 0x03] = .ok (.cpxImm 0x03) [] ∧
  decode [0xD0, 0xF8] = .ok (.bne 0xF8) [] ∧
  decode [0x00, 0xFF] = .ok .brk [0xFF] ∧
  decode [0xB1, 0x86] = .ok (.ldaIndy 0x86) [] ∧
  decode [0x6C, 0xFF, 0x02] = .ok (.jmpInd 0x02FF) [] ∧
  decode [0x1E, 0xFF, 0x02] = .ok (.aslAbsx 0x02FF) []

/-- 30_encoding.md R87: the legal opcodes by mnemonic and mode, in both directions, and 151 of them; the operand that is
resolved is of the mode listed. -/
def Obligations.EveryInstructionHasAnEncodingOfItsMnemonic : Prop :=
  (∀ i : Instr, (i.opcode, i.mode) ∈ encodingsOf i.mnemonic) ∧
  (∀ n op m, (op, m) ∈ encodingsOf n → ∃ i : Instr, i.mnemonic = n ∧ i.opcode = op ∧ i.mode = m) ∧
  (∀ i j : Instr, i.opcode = j.opcode → i.mnemonic = j.mnemonic ∧ i.mode = j.mode) ∧
  (descriptors.map fun d => (encodingsOf d.mnemonic).contains (d.opcode, d.mode)) = List.replicate 151 true ∧
  (∀ i : Instr, i.operand.mode = i.mode)

/-- Decode and encode agree: no bit of an operand is dropped (30_encoding.md R80 to R89). -/
def Obligations.DecodeOfEncodeIsTheInstruction : Prop :=
  ∀ (i : Instr) (rest : List Byte), i.wellFormed = true ∧ decode (encode i ++ rest) = .ok i rest

/-- The other direction of the round trip: one encoding for each instruction (30_encoding.md R80, R81, R85). -/
def Obligations.DecodedBytesAreTheEncoding : Prop :=
  ∀ (bytes : List Byte) (i : Instr) (rest : List Byte), decode bytes = .ok i rest →
    bytes = encode i ++ rest ∧ bytes.length = i.length + rest.length

/-- 30_encoding.md R88: the illegal opcode bytes and what fetching one does. -/
def Obligations.ExactlyTheListedBytesAreIllegal : Prop :=
  illegalBytes.length = 105 ∧ illegalBytes.Nodup ∧
  (∀ (op : Byte) (rest : List Byte), decode (op :: rest) = .error (.unimplementedOpcode op) ↔ op ∈ illegalBytes) ∧
  (∀ s : State, s.engine = .running → s.read s.pc ∈ illegalBytes →
    step s = .next { s with engine := .faulted (.unimplementedOpcode (s.read s.pc) s.pc) })

/-- A step runs the decoded instruction (40_execution_engine.md R101, R103, R110). The draw of the refresh, at the counter
`draws`, is the model's own (log 2). -/
def Obligations.StepRunsTheDecodedInstruction : Prop :=
  ∀ (s : State) (i : Instr) (rest : List Byte), s.engine = .running →
    (decode [s.read s.pc, s.refreshRandom.read (s.pc + 1), s.refreshRandom.read (s.pc + 2)] = .ok i rest →
      step s = exec i s.refreshRandom) ∧
    (s.cfg.rndRefresh = .perLoad → decode [s.read s.pc, s.read (s.pc + 1), s.read (s.pc + 2)] = .ok i rest →
      step s = exec i s)

/-- 40_execution_engine.md R110: where the per-step refresh of 0x00FE stands in a step, with the spec's own choices D5
and C11. The draw is a free value, nothing is known of it, and the counter `draws` it is taken at is the model's choice
(log 2). -/
def Obligations.RefreshHappensAfterDecodeAndBeforeOperands : Prop :=
  (∀ s : State, s.cfg.rndRefresh = .perLoad → s.refreshRandom = s) ∧
  (∀ s : State, s.cfg.rndRefresh = .perStep →
    s.refreshRandom.read 0x00FE = Config.draw s.draws ∧ s.refreshRandom.draws = s.draws + 1 ∧
    (∀ c, c ≠ 0x00FE → s.refreshRandom.read c = s.read c) ∧
    s.refreshRandom = { s with mem := s.refreshRandom.mem, draws := s.draws + 1 }) ∧
  (∀ (s : State) (form : Form), s.engine = .running → opcodeForm (s.read s.pc) = some form →
    step s = exec (form.build (s.refreshRandom.read (s.pc + 1)) (s.refreshRandom.read (s.pc + 2))) s.refreshRandom) ∧
  (∀ s : State, s.engine = .running → opcodeForm (s.read s.pc) = none →
    ∃ t, step s = .next t ∧ t.mem = s.mem ∧ t.draws = s.draws)

/-- 40_execution_engine.md R102 and R107: the fault on an unknown opcode, with the spec's own choices D18 (no step follows) and
D21 (no event). That a step outside Running is answered by the model's own fault is log 6. -/
def Obligations.UnknownOpcodeFaultsPrecisely : Prop :=
  ∀ s : State, s.engine = .running → opcodeForm (s.read s.pc) = none →
    ∃ t, step s = .next t ∧ t.engine = .faulted (.unimplementedOpcode (s.read s.pc) s.pc) ∧
      t = { s with engine := t.engine } ∧ (∀ c, t.read c = s.read c) ∧ observe s = none ∧
      step t = .fault (.stepWhileFaulted (.unimplementedOpcode (s.read s.pc) s.pc))

/-- A step outside Running (40_execution_engine.md R107, the spec's own choice D18; log 6). -/
def Obligations.NoStepOutsideRunning : Prop :=
  ∀ s : State,
    (s.engine = .halted → step s = .fault .stepWhileHalted) ∧
    (∀ r, s.engine = .faulted r → step s = .fault (.stepWhileFaulted r)) ∧
    (s.engine ≠ .running → (∀ t, step s ≠ .next t) ∧ observe s = none ∧ stepCycles s = none)

/-- 40_execution_engine.md R100: the engine's state machine. -/
def Obligations.EngineTransitionsAreTheListedOnes : Prop :=
  (∀ s : State, s.engine = .running → ∃ t, step s = .next t ∧
    (s.read s.pc = 0x00 → t.engine = .halted) ∧
    (opcodeForm (s.read s.pc) = none → t.engine = .faulted (.unimplementedOpcode (s.read s.pc) s.pc)) ∧
    (s.read s.pc ≠ 0x00 → opcodeForm (s.read s.pc) ≠ none → t.engine = .running)) ∧
  (∀ s t : State, s.engine ≠ .running → step s ≠ .next t) ∧
  (∀ (origin : Addr) (bytes : List Byte) (s : State), (load origin bytes s).engine = .running)

/-- The memory invariant. The canonical form is the model's own (log 5); it stands for the flat array of 10_state.md R39. -/
def Obligations.EveryMoveKeepsMemoryCanonical : Prop :=
  (∀ s t : State, s.mem.wf → step s = .next t → t.mem.wf) ∧
  (∀ (s : State) (key : Byte), s.mem.wf → (hostKeyWrite key s).mem.wf) ∧
  (∀ (origin : Addr) (bytes : List Byte) (s : State), (load origin bytes s).mem.wf)

/-- The canonical form is canonical (the model's own form, log 5). -/
def Obligations.CanonicalMemoriesThatReadAlikeAreEqual : Prop :=
  ∀ m n : Memory, m.wf → n.wf → (∀ a : Addr, m.read a = n.read a) → m = n

/-- The invariant of 10_state.md R32 and R33, which the spec derives from its decisions D11, D12 and D34. -/
def Obligations.EveryStepKeepsBreakAndBitFive : Prop :=
  ∀ s t : State, s.statusBitsInv → step s = .next t → t.statusBitsInv

/-- The two invariants hold at reset and after every load (10_state.md R42). The canonical form is the model's own (log 5). -/
def Obligations.ResetAndLoadMeetTheInvariants : Prop :=
  State.reset.memoryInv ∧ State.reset.statusBitsInv ∧
  (∀ (origin : Addr) (bytes : List Byte) (s : State),
    (load origin bytes s).memoryInv ∧ (load origin bytes s).statusBitsInv)

/-- The parameters are not state (10_state.md R41); the count of draws is the model's own (log 2, log 3). -/
def Obligations.StepsKeepTheParametersAndCountDraws : Prop :=
  ∀ s t : State, step s = .next t → t.cfg = s.cfg ∧
    t.draws = if s.cfg.rndRefresh = .perStep ∧ opcodeForm (s.read s.pc) ≠ none then s.draws + 1 else s.draws

/-- Load, the only reset (70_reset_and_hazards.md R270, R271, 10_state.md R42); the order of its parts is the spec's own
choice D2. The draw and the key code are free, nothing is known of them. Three clauses are in the model's own terms: 0x00FE
holds the draw at the counter `draws` (log 2), 0x00FF holds the field `cfg.keyDefault` (log 1), and the parameters and the
counter, which are no state of the machine of R270, outlive a load (log 3, log 2; DESIGN CHOICE all three).
The last clause compares two loads: that they get the same draw at equal counters is the model's choice (log 15). -/
def Obligations.LoadGivesTheResetValues : Prop :=
  ∀ (origin : Addr) (bytes : List Byte) (s : State), let t := load origin bytes s
    t.a = 0x00 ∧ t.x = 0x00 ∧ t.y = 0x00 ∧ t.sp = 0x00 ∧ t.p = 0x00 ∧ t.pc = origin ∧ t.engine = .running ∧
    t.read 0x00FE = Config.draw s.draws ∧ t.read 0x00FF = s.cfg.keyDefault ∧
    (∀ c : Addr, c ≠ 0x00FE → c ≠ 0x00FF →
      (∀ k, k < bytes.length → origin + BitVec.ofNat 16 k ≠ c) → t.read c = 0x00) ∧
    (∀ (c : Addr) (k : Nat) (h : k < bytes.length), c ≠ 0x00FE → c ≠ 0x00FF → origin + BitVec.ofNat 16 k = c →
      (∀ j, k < j → j < bytes.length → origin + BitVec.ofNat 16 j ≠ c) → t.read c = bytes[k]) ∧
    (∀ s' : State, s'.cfg = s.cfg → s'.draws = s.draws → load origin bytes s' = t)

/-- The reset state against 10_state.md R42. That it is the load of an empty image is the model's choice (log 4). The
first clause rests on three more: one draw function serves every machine, so that each load at the counter 0 draws the byte
reset holds (log 15), the counter is then 1 (log 2), and the parameters are a field with the key code an opaque constant
(log 3, log 1). -/
def Obligations.ResetIsTheLoadOfAnEmptyImage : Prop :=
  (∀ s : State, s.cfg = Config.standard → s.draws = 0 → load 0x0600 [] s = State.reset) ∧
  (∀ c : Addr, c ≠ 0x00FE → c ≠ 0x00FF → State.reset.read c = 0x00) ∧
  State.reset.a = 0x00 ∧ State.reset.x = 0x00 ∧ State.reset.y = 0x00 ∧ State.reset.sp = 0x00 ∧
  State.reset.p = 0x00 ∧ State.reset.pc = 0x0600 ∧ State.reset.engine = .running

/-- The host's only write to a loaded machine (60_exceptions.md R255, 20_memory.md R58). -/
def Obligations.HostKeyWriteChangesOneCell : Prop :=
  ∀ (s : State) (key : Byte), let t := hostKeyWrite key s
    t.read 0x00FF = key ∧ Frame [] [] [0x00FF] s t ∧ t.pc = s.pc ∧ t = { s with mem := t.mem }

/-- Run with a budget (40_execution_engine.md R106, the spec's own choice D19), under every observer (20_memory.md R61;
the form of an observer is the model's own, log 9). -/
def Obligations.RunsCompose : Prop :=
  (∀ (m n : Nat) (obs : Observer) (s : State),
    runState (m + n) obs s = runState n (obs.after m) (runState m obs s)) ∧
  (∀ (n : Nat) (obs : Observer) (s : State), (run n obs s).2 = runState n obs s ∧
    ((run n obs s).1 = .halted ↔ (run n obs s).2.engine = .halted) ∧
    (∀ r, (run n obs s).1 = .faulted r ↔ (run n obs s).2.engine = .faulted r) ∧
    ((run n obs s).1 = .stepBudgetExhausted ↔ (run n obs s).2.engine = .running)) ∧
  (∀ (obs : Observer) (s : State), (run 0 obs s).2 = s) ∧
  (∀ (n : Nat) (obs : Observer) (s : State), s.engine ≠ .running → (run n obs s).2 = s) ∧
  (∀ (n : Nat) (s t : State), step s = .next t → runState (n + 1) .silent s = runState n .silent t)

/-- The observer event (40_execution_engine.md R104, the spec's own choices D20 and D21). That the event is a
function of the state before the step, and a branch's offset an integer, is log 11; the draw of the refresh is log 2. -/
def Obligations.ObserverEventOfARetiredStep : Prop :=
  (∀ (s : State) (form : Form), s.engine = .running → opcodeForm (s.read s.pc) = some form →
    ∃ o, observe s = some ⟨s.pc, s.read s.pc, o⟩ ∧
      o = observedOperand (form.build (s.refreshRandom.read (s.pc + 1)) (s.refreshRandom.read (s.pc + 2)))
        s.refreshRandom) ∧
  (∀ (i : Instr) (s : State),
    (i.mnemonic.kind = .value → ∃ m, operandValue s i.operand = some m ∧ observedOperand i s = .value m) ∧
    (i.mnemonic.kind = .address → ∃ ea, operandAddress s i.operand = some ea ∧ observedOperand i s = .address ea) ∧
    (i.mnemonic.kind = .rmw → i.mode ≠ .acc →
      ∃ ea, operandAddress s i.operand = some ea ∧ observedOperand i s = .address ea) ∧
    (i.mnemonic.kind = .branch → ∃ d, i.operand = .relative d ∧ observedOperand i s = .offset (signed d)) ∧
    (i.mode = .imp ∨ i.mode = .acc → observedOperand i s = .none))

/-- The cycle count, where one is reported (70_reset_and_hazards.md R281); timing that no state depends on. The base cycles are
those of spec/opcode_table.json (log 11). -/
def Obligations.CyclesAddTheExtraOnesOfTheRule : Prop :=
  ∀ (i : Instr) (s : State),
    (i.mnemonic.kind = .value → i.mode = .absx ∨ i.mode = .absy ∨ i.mode = .indy →
      cycles i s = i.descriptor.baseCycles + (if (resolve i s).pageCrossed then 1 else 0)) ∧
    (i.mnemonic.kind = .value → i.mode ≠ .absx → i.mode ≠ .absy → i.mode ≠ .indy →
      cycles i s = i.descriptor.baseCycles) ∧
    (i.mnemonic.kind = .branch → ∃ d, i.operand = .relative d ∧ i.descriptor.baseCycles = 2 ∧
      cycles i s = (if branchTaken s i.mnemonic then
        (if hi8 (s.pc + 2 + d.signExtend 16) ≠ hi8 s.pc then 4 else 3) else 2)) ∧
    (i.mnemonic.kind ≠ .value → i.mnemonic.kind ≠ .branch → cycles i s = i.descriptor.baseCycles)

/-- 41_addressing_modes.md R124 to R129: the direct modes of the resolver. -/
def Obligations.DirectModesComputeTheirAddress : Prop :=
  ∀ s : State,
    (∀ o, operandValue s (.mem o) = some (s.read (effectiveAddress s o))) ∧
    (∀ b, effectiveAddress s (.zp b) = word16 0x00 b ∧ MemOperand.length (.zp b) = 2 ∧
      ∀ k, operandPageCrossed s k (.mem (.zp b)) = false) ∧
    (∀ b, effectiveAddress s (.zpx b) = word16 0x00 (b + s.x) ∧ MemOperand.length (.zpx b) = 2 ∧
      ∀ k, operandPageCrossed s k (.mem (.zpx b)) = false) ∧
    (∀ b, effectiveAddress s (.zpy b) = word16 0x00 (b + s.y) ∧ MemOperand.length (.zpy b) = 2 ∧
      ∀ k, operandPageCrossed s k (.mem (.zpy b)) = false) ∧
    (∀ w, effectiveAddress s (.abs w) = w ∧ MemOperand.length (.abs w) = 3 ∧
      ∀ k, operandPageCrossed s k (.mem (.abs w)) = false) ∧
    (∀ w, (effectiveAddress s (.absx w)).toNat = (w.toNat + s.x.toNat) % 0x10000 ∧ MemOperand.length (.absx w) = 3 ∧
      ∀ k, operandPageCrossed s k (.mem (.absx w)) = decide (hi8 (effectiveAddress s (.absx w)) ≠ hi8 w)) ∧
    (∀ w, (effectiveAddress s (.absy w)).toNat = (w.toNat + s.y.toNat) % 0x10000 ∧ MemOperand.length (.absy w) = 3 ∧
      ∀ k, operandPageCrossed s k (.mem (.absy w)) = decide (hi8 (effectiveAddress s (.absy w)) ≠ hi8 w)) ∧
    (∀ i : Instr, i.mode = .zpy → i.mnemonic = .ldx ∨ i.mnemonic = .stx)

/-- 41_addressing_modes.md R130 to R133: the pointer modes and Relative, with the spec's own choices D14, D15 and D16. -/
def Obligations.PointerModesReadTheirPointer : Prop :=
  ∀ s : State,
    (∀ b, effectiveAddress s (.indx b) =
        word16 (s.read (word16 0x00 (b + s.x + 1))) (s.read (word16 0x00 (b + s.x))) ∧
      MemOperand.length (.indx b) = 2 ∧ ∀ k, operandPageCrossed s k (.mem (.indx b)) = false) ∧
    (∀ b, let pointer := word16 (s.read (word16 0x00 (b + 1))) (s.read (word16 0x00 b))
      (effectiveAddress s (.indy b)).toNat = (pointer.toNat + s.y.toNat) % 0x10000 ∧ MemOperand.length (.indy b) = 2 ∧
      ∀ k, operandPageCrossed s k (.mem (.indy b)) = decide (hi8 (effectiveAddress s (.indy b)) ≠ hi8 pointer)) ∧
    (∀ w, indirectTarget s w = word16
      (s.read (if s.cfg.jmpIndPageWrap then word16 (hi8 w) (lo8 w + 1) else w + 1)) (s.read w) ∧
      (Operand.indirect w).mode.length = 3 ∧ ∀ k, operandPageCrossed s k (.indirect w) = false) ∧
    (∀ d : Byte, (Operand.relative d).mode.length = 2 ∧
      (branchTarget s.pc d).toNat = ((s.pc.toNat + 2 + signed d) % 0x10000).toNat) ∧
    (∀ d k, operandPageCrossed s k (.relative d) = (k && decide (hi8 (branchTarget s.pc d) ≠ hi8 s.pc)))

/-- 10_state.md R30, with the table of R36, which the spec derives: the flag frame of every instruction. The rows of PLP,
RTI and BRK rest on the spec's own choices D11, D12 and D34. -/
def Obligations.OnlyTheDocumentedFlagsChange : Prop :=
  (∀ (p : Byte) (f : Flag) (b : Bool), getFlag (setFlag p f b) f = b ∧
    (∀ g, g ≠ f → getFlag (setFlag p f b) g = getFlag p g) ∧
    setFlag p f b = (p &&& ~~~ (1#8 <<< f.pos)) ||| (if b then 1#8 <<< f.pos else 0)) ∧
  (∀ (i : Instr) (s t : State) (f : Flag), exec i s = .next t → f ∉ flagsWritten i.mnemonic → t.flag f = s.flag f)

/-- The register frame of every instruction (10_state.md R20, the column "written by", which the spec derives). The parameters
and the count of draws are the model's own fields (log 3, log 2). -/
def Obligations.RegistersChangeOnlyByTheirWriters : Prop :=
  ∀ (i : Instr) (s t : State), exec i s = .next t →
    (∀ r, r ∉ registersWritten i → regValue t r = regValue s r) ∧ t.cfg = s.cfg ∧ t.draws = s.draws ∧
    (i.mnemonic ≠ .brk → t.engine = s.engine)

/-- The memory frame of every instruction; the stored address is computed with the resolver's own function on the state
before the instruction (20_memory.md R55, 41_addressing_modes.md R134, 10_state.md R23). -/
def Obligations.MemoryChangesOnlyAtTheStoredCells : Prop :=
  ∀ (i : Instr) (s t : State), exec i s = .next t → ∀ c : Addr, c ∉ storedCells i s → t.read c = s.read c

/-- No instruction can fail (60_exceptions.md R240, R244), and PC after it (10_state.md R25). -/
def Obligations.EveryInstructionCompletes : Prop :=
  ∀ (i : Instr) (s : State), ∃ t, exec i s = .next t ∧
    (i.mnemonic ∉ [.jmp, .jsr, .rts, .rti, .brk, .bcc, .bcs, .beq, .bne, .bmi, .bpl, .bvc, .bvs] → NextPc i s t)

/-- 42_load_store.md R140 to R142: the loads, result, flags, PC and frame. -/
def Obligations.LoadsSetTheRegisterAndItsFlags : Prop :=
  HasEncodings [.lda, .ldx, .ldy] ∧
  ∀ (i : Instr) (s : State),
    (i.mnemonic = .lda → ∃ m, operandValue s i.operand = some m ∧ SetsRegister i .A m s) ∧
    (i.mnemonic = .ldx → ∃ m, operandValue s i.operand = some m ∧ SetsRegister i .X m s) ∧
    (i.mnemonic = .ldy → ∃ m, operandValue s i.operand = some m ∧ SetsRegister i .Y m s)

/-- 42_load_store.md R143 to R145: the stores, the byte stored, PC and frame. -/
def Obligations.StoresWriteTheRegisterAndNothingElse : Prop :=
  HasEncodings [.sta, .stx, .sty] ∧
  ∀ (i : Instr) (s : State),
    (i.mnemonic = .sta → StoresAtAddress i s.a s) ∧
    (i.mnemonic = .stx → StoresAtAddress i s.x s) ∧
    (i.mnemonic = .sty → StoresAtAddress i s.y s)

/-- 43_transfer_stack.md R150 to R155: the transfers. -/
def Obligations.TransfersCopyTheRegister : Prop :=
  HasEncodings [.tax, .tay, .txa, .tya, .tsx, .txs] ∧
  ∀ s : State,
    SetsRegister .tax .X s.a s ∧ SetsRegister .tay .Y s.a s ∧ SetsRegister .txa .A s.x s ∧
    SetsRegister .tya .A s.y s ∧ SetsRegister .tsx .X s.sp s ∧
    (∃ t, exec .txs s = .next t ∧ t.sp = s.x ∧ t.pc = s.pc + 1 ∧ Frame [.S] [] [] s t)

/-- 43_transfer_stack.md R158 and R160: the push and the pull of A. -/
def Obligations.PhaPushesAndPlaPulls : Prop :=
  HasEncodings [.pha, .pla] ∧
  ∀ s : State,
    (∃ t, exec .pha s = .next t ∧ t.read (word16 0x01 s.sp) = s.a ∧ t.sp = s.sp - 1 ∧ t.pc = s.pc + 1 ∧
      Frame [.S] [] [word16 0x01 s.sp] s t) ∧
    (∃ t, exec .pla s = .next t ∧ t.a = s.read (word16 0x01 (s.sp + 1)) ∧ t.sp = s.sp + 1 ∧ HasZN t.a t ∧
      t.pc = s.pc + 1 ∧ Frame [.A, .S] [.Z, .N] [] s t) ∧
    (∃ t u, exec .pha s = .next t ∧ exec .pla t = .next u ∧ u.a = s.a ∧ u.sp = s.sp ∧ HasZN s.a u ∧
      u.pc = s.pc + 2)

/-- PHP and PLP (43_transfer_stack.md R159, R161), with the spec's own choices D10 and D11. -/
def Obligations.PhpPushesTheImageAndPlpLoadsSixFlags : Prop :=
  ∀ s : State,
    (∃ t, exec .php s = .next t ∧ t.read (word16 0x01 s.sp) = s.p ||| 0x30 ∧ t.sp = s.sp - 1 ∧ t.p = s.p ∧
      t.pc = s.pc + 1 ∧ Frame [.S] [] [word16 0x01 s.sp] s t) ∧
    (∃ t, exec .plp s = .next t ∧ t.sp = s.sp + 1 ∧
      (∀ v, v = s.read (word16 0x01 (s.sp + 1)) → t.p = (v &&& 0xCF) ||| (s.p &&& 0x30) ∧
        ∀ f, f ≠ .B → f ≠ .five → t.flag f = getFlag v f) ∧
      t.pc = s.pc + 1 ∧ Frame [.S] [.N, .V, .D, .I, .Z, .C] [] s t)

/-- The stack (10_state.md R22, R23, 00_scope.md R10), with the spec's own choice D9 for 16-bit values. The function `f`
only numbers the bytes pushed; only its first values matter. -/
def Obligations.PushesWrapAfterTwoHundredFiftySix : Prop :=
  ∀ s : State,
    (∀ (f : Nat → Byte) (n : Nat), (pushes f n s).sp = s.sp - BitVec.ofNat 8 n) ∧
    (∀ f : Nat → Byte, (pushes f 256 s).sp = s.sp ∧
      ∀ k, k < 256 → (pushes f 256 s).read (word16 0x01 (s.sp - BitVec.ofNat 8 k)) = f k) ∧
    (∀ b, (s.push b).pulled = b ∧ (s.push b).popped.sp = s.sp) ∧
    (∀ w, (s.push16 w).read (word16 0x01 s.sp) = hi8 w ∧ (s.push16 w).read (word16 0x01 (s.sp - 1)) = lo8 w ∧
      (s.push16 w).pulled16 = w ∧ (s.push16 w).popped16.sp = s.sp)

/-- The pairs of 43_transfer_stack.md R161 ("PHP then PLP leaves P unchanged") and R160 ("PHA then PLA restores A and S"),
nested. -/
def Obligations.PushThenPullRestores : Prop :=
  ∀ s : State,
    (∃ t u, exec .php s = .next t ∧ exec .plp t = .next u ∧ u.p = s.p ∧ u.sp = s.sp ∧ u.a = s.a ∧
      u.pc = s.pc + 2) ∧
    (∃ t u v w, exec .php s = .next t ∧ exec .pha t = .next u ∧ exec .pla u = .next v ∧ exec .plp v = .next w ∧
      w.p = s.p ∧ w.a = s.a ∧ w.sp = s.sp ∧ w.pc = s.pc + 4)

/-- 44_arithmetic.md R165: ADC, result, flags, PC and frame. -/
def Obligations.AdcAddsWithCarry : Prop :=
  HasEncodings [.adc] ∧
  ∀ (i : Instr) (s : State), i.mnemonic = .adc → ∃ m t, operandValue s i.operand = some m ∧ exec i s = .next t ∧
    (∀ sum, sum = s.a.toNat + m.toNat + (if s.flag .C then 1 else 0) →
      t.a = BitVec.ofNat 8 sum ∧ t.flag .C = decide (sum > 0xFF)) ∧
    (t.flag .V = true ↔ (~~~ (s.a ^^^ m) &&& (s.a ^^^ t.a) &&& 0x80) ≠ 0) ∧ HasZN t.a t ∧ NextPc i s t ∧
    Frame [.A] [.N, .V, .Z, .C] [] s t

/-- 44_arithmetic.md R166: SBC, result, flags, PC and frame, with the decisions D13 and D32. The clause on C and the borrow is
the inference R166 marks as its own: "[derived: sum > 0xFF iff A + 255 − M + C_in >= 256 iff A − M − (1 − C_in) >= 0]". -/
def Obligations.SbcSubtractsWithBorrow : Prop :=
  HasEncodings [.sbc] ∧
  ∀ (i : Instr) (s : State), i.mnemonic = .sbc → ∃ m t, operandValue s i.operand = some m ∧ exec i s = .next t ∧
    (∀ sum, sum = s.a.toNat + (~~~ m).toNat + (if s.flag .C then 1 else 0) →
      t.a = BitVec.ofNat 8 sum ∧ t.flag .C = decide (sum > 0xFF)) ∧
    t.a = s.a - m - (if s.flag .C then 0 else 1) ∧
    (t.flag .C = true ↔ m.toNat + (if s.flag .C then 0 else 1) ≤ s.a.toNat) ∧
    (t.flag .V = true ↔ (~~~ (s.a ^^^ ~~~ m) &&& (s.a ^^^ t.a) &&& 0x80) ≠ 0) ∧
    (t.flag .V = true ↔ ((s.a ^^^ m) &&& (s.a ^^^ t.a) &&& 0x80) ≠ 0) ∧ HasZN t.a t ∧ NextPc i s t ∧
    Frame [.A] [.N, .V, .Z, .C] [] s t

/-- The laws of 44_arithmetic.md R177, which the spec derives from R165 and R166. -/
def Obligations.CarryAndOverflowMeanUnsignedAndSigned : Prop :=
  ∀ (i : Instr) (s t : State) (m : Byte) (c : Int), operandValue s i.operand = some m → exec i s = .next t →
    c = (if s.flag .C then 1 else 0) →
    (i.mnemonic = .adc →
      (t.a.toNat : Int) = ((s.a.toNat : Int) + m.toNat + c) % 256 ∧
      (t.flag .C = true ↔ (s.a.toNat : Int) + m.toNat + c ≥ 256) ∧
      (t.flag .V = true ↔ signed s.a + signed m + c < -128 ∨ signed s.a + signed m + c > 127)) ∧
    (i.mnemonic = .sbc →
      (t.a.toNat : Int) = ((s.a.toNat : Int) - m.toNat - (1 - c)) % 256 ∧
      (t.flag .C = true ↔ (s.a.toNat : Int) - m.toNat - (1 - c) ≥ 0) ∧
      (t.flag .V = true ↔ signed s.a - signed m - (1 - c) < -128 ∨ signed s.a - signed m - (1 - c) > 127))

/-- 44_arithmetic.md R167 to R169: the compares. -/
def Obligations.ComparesSetCarryZeroNegative : Prop :=
  HasEncodings [.cmp, .cpx, .cpy] ∧
  ∀ (i : Instr) (s : State),
    (i.mnemonic = .cmp → Compares i s.a s) ∧ (i.mnemonic = .cpx → Compares i s.x s) ∧
    (i.mnemonic = .cpy → Compares i s.y s)

/-- 44_arithmetic.md R170 and R171: INC and DEC. -/
def Obligations.IncAndDecModifyOneCell : Prop :=
  HasEncodings [.inc, .dec] ∧
  ∀ (i : Instr) (s : State),
    (i.mnemonic = .inc → ModifiesMemory i (· + 1) [] (fun _ _ => True) s) ∧
    (i.mnemonic = .dec → ModifiesMemory i (· - 1) [] (fun _ _ => True) s)

/-- 44_arithmetic.md R172 to R175: the index register counts. -/
def Obligations.IndexRegistersCountByOne : Prop :=
  HasEncodings [.inx, .iny, .dex, .dey] ∧
  ∀ s : State,
    SetsRegister .inx .X (s.x + 1) s ∧ SetsRegister .iny .Y (s.y + 1) s ∧
    SetsRegister .dex .X (s.x - 1) s ∧ SetsRegister .dey .Y (s.y - 1) s

/-- 45_logic_shift.md R185 to R187: AND, ORA, EOR. -/
def Obligations.LogicCombinesIntoA : Prop :=
  HasEncodings [.and, .ora, .eor] ∧
  ∀ (i : Instr) (s : State),
    (i.mnemonic = .and → ∃ m, operandValue s i.operand = some m ∧ SetsRegister i .A (s.a &&& m) s) ∧
    (i.mnemonic = .ora → ∃ m, operandValue s i.operand = some m ∧ SetsRegister i .A (s.a ||| m) s) ∧
    (i.mnemonic = .eor → ∃ m, operandValue s i.operand = some m ∧ SetsRegister i .A (s.a ^^^ m) s)

/-- 45_logic_shift.md R188: BIT. -/
def Obligations.BitTestsWithoutChangingA : Prop :=
  HasEncodings [.bit] ∧
  ∀ (i : Instr) (s : State), i.mnemonic = .bit → ∃ m t, operandValue s i.operand = some m ∧ exec i s = .next t ∧
    t.flag .Z = decide (s.a &&& m = 0) ∧ t.flag .N = m.getLsbD 7 ∧ t.flag .V = m.getLsbD 6 ∧ NextPc i s t ∧
    Frame [] [.N, .V, .Z] [] s t

/-- 45_logic_shift.md R189, R190 and R193: ASL and LSR. -/
def Obligations.AslAndLsrShiftByOne : Prop :=
  HasEncodings [.asl, .lsr] ∧
  ∀ (i : Instr) (s : State),
    (i.mnemonic = .asl → Shifts i (fun v => v <<< 1) (fun v => v.getLsbD 7) s) ∧
    (i.mnemonic = .lsr → Shifts i (fun v => v >>> 1) (fun v => v.getLsbD 0) s ∧
      ∀ t, exec i s = .next t → t.flag .N = false)

/-- 45_logic_shift.md R191, R192 and R193: ROL and ROR, and the 9-bit rotation of {C, v}. -/
def Obligations.RolAndRorRotateThroughCarry : Prop :=
  HasEncodings [.rol, .ror] ∧
  (∀ (i : Instr) (s : State),
    (i.mnemonic = .rol →
      Shifts i (fun v => (v <<< 1) ||| (if s.flag .C then 0x01 else 0x00)) (fun v => v.getLsbD 7) s) ∧
    (i.mnemonic = .ror →
      Shifts i (fun v => (v >>> 1) ||| (if s.flag .C then 0x80 else 0x00)) (fun v => v.getLsbD 0) s ∧
      ∀ t, exec i s = .next t → t.flag .N = s.flag .C)) ∧
  (∀ (i : Instr) (s : State), i.mnemonic = .rol → ∃ t, execTimes i 9 s = .next t ∧ t.a = s.a ∧
    t.flag .C = s.flag .C ∧ (∀ c, t.read c = s.read c))

/-- JMP (46_control_flow.md R200, 41_addressing_modes.md R133), the pointer's wrap being the spec's own choice D15, for
both settings. -/
def Obligations.JmpSetsPcAndNothingElse : Prop :=
  ∀ (s : State) (w : Addr),
    (∃ t, exec (.jmpAbs w) s = .next t ∧ t.pc = w ∧ Frame [] [] [] s t) ∧
    (∃ t, exec (.jmpInd w) s = .next t ∧ Frame [] [] [] s t ∧
      (s.cfg.jmpIndPageWrap = true → t.pc = word16 (s.read (word16 (hi8 w) (lo8 w + 1))) (s.read w)) ∧
      (s.cfg.jmpIndPageWrap = false → t.pc = word16 (s.read (w + 1)) (s.read w)) ∧
      (lo8 w ≠ 0xFF → t.pc = word16 (s.read (w + 1)) (s.read w)))

/-- JSR (46_control_flow.md R201); the order of the two pushed bytes is the spec's own choice D9. -/
def Obligations.JsrPushesItsLastByteAddress : Prop :=
  ∀ (s : State) (w : Addr), ∃ t, exec (.jsr w) s = .next t ∧ t.pc = w ∧ t.sp = s.sp - 2 ∧
    t.read (word16 0x01 s.sp) = hi8 (s.pc + 2) ∧ t.read (word16 0x01 (s.sp - 1)) = lo8 (s.pc + 2) ∧
    Frame [.S] [] [word16 0x01 s.sp, word16 0x01 (s.sp - 1)] s t

/-- 46_control_flow.md R202: RTS, and the return from a JSR with a balanced stack in between. -/
def Obligations.RtsReturnsPastThePulledAddress : Prop :=
  HasEncodings [.rts] ∧
  (∀ s : State, ∃ t, exec .rts s = .next t ∧
    t.pc = word16 (s.read (word16 0x01 (s.sp + 2))) (s.read (word16 0x01 (s.sp + 1))) + 1 ∧ t.sp = s.sp + 2 ∧
    Frame [.S] [] [] s t) ∧
  (∀ (s t u : State) (w : Addr), exec (.jsr w) s = .next t → u.sp = t.sp →
    u.read (word16 0x01 s.sp) = t.read (word16 0x01 s.sp) →
    u.read (word16 0x01 (s.sp - 1)) = t.read (word16 0x01 (s.sp - 1)) →
    ∃ v, exec .rts u = .next v ∧ v.pc = s.pc + 3 ∧ v.sp = s.sp)

/-- 46_control_flow.md R203 to R211: the branches. -/
def Obligations.BranchesFollowTheirFlag : Prop :=
  HasEncodings [.bcc, .bcs, .beq, .bne, .bmi, .bpl, .bvc, .bvs] ∧
  ∀ (s : State) (d : Byte),
    Branches (.bcc d) d .C false s ∧ Branches (.bcs d) d .C true s ∧ Branches (.beq d) d .Z true s ∧
    Branches (.bne d) d .Z false s ∧ Branches (.bmi d) d .N true s ∧ Branches (.bpl d) d .N false s ∧
    Branches (.bvc d) d .V false s ∧ Branches (.bvs d) d .V true s

/-- 47_flag_system.md R220 to R226: the flag instructions. -/
def Obligations.FlagInstructionsWriteOneFlag : Prop :=
  HasEncodings [.clc, .sec, .cli, .sei, .cld, .sed, .clv] ∧
  ∀ s : State,
    WritesOneFlag .clc .C false s ∧ WritesOneFlag .sec .C true s ∧ WritesOneFlag .cli .I false s ∧
    WritesOneFlag .sei .I true s ∧ WritesOneFlag .cld .D false s ∧ WritesOneFlag .sed .D true s ∧
    WritesOneFlag .clv .V false s

/-- 47_flag_system.md R227: NOP, its encoding, its step and its event. The refresh in the step is 40_execution_engine.md R110,
with the draw and its counter as the model holds them (log 2). What the observer does at the event, and how the run goes
on, rest on 20_memory.md R61 and 60_exceptions.md R255 in the form of log 9 (DESIGN CHOICE, and DEDUCED for a load). -/
def Obligations.NopOnlyAdvancesPc : Prop :=
  (∀ s : State, exec .nop s = .next { s with pc := s.pc + 1 }) ∧
  (∀ i : Instr, i.mnemonic = .nop ↔ i = .nop) ∧
  (∀ bytes rest : List Byte, decode bytes = .ok .nop rest ↔ bytes = 0xEA :: rest) ∧
  (∀ s : State, s.engine = .running → s.read s.pc = 0xEA →
    observe s = some ⟨s.pc, 0xEA, .none⟩ ∧
    ∃ t, step s = .next t ∧ t = { s.refreshRandom with pc := s.pc + 1 } ∧
      ∀ (n : Nat) (obs : Observer), runState (n + 1) obs s =
        runState n (obs.after 1) (hostActions (obs 0 ⟨s.pc, 0xEA, .none⟩ t) t))

/-- BRK, the machine's only trap entry (47_flag_system.md R232, 60_exceptions.md R247), with the spec's own choices D8, D9,
D10 and D34, for both settings of the offset. -/
def Obligations.BrkPushesItsRecordAndHalts : Prop :=
  ∀ s : State, ∃ t, exec .brk s = .next t ∧ t.engine = .halted ∧ t.pc = s.pc ∧ t.flag .B = true ∧ t.sp = s.sp - 3 ∧
    (∀ pushed, pushed = s.pc + (if s.cfg.brkPcPushOffset = .two then 2 else 0) →
      t.read (word16 0x01 s.sp) = hi8 pushed ∧ t.read (word16 0x01 (s.sp - 1)) = lo8 pushed) ∧
    t.read (word16 0x01 (s.sp - 2)) = t.p ||| 0x30 ∧
    Unchanged [.S] [.B] [word16 0x01 s.sp, word16 0x01 (s.sp - 1), word16 0x01 (s.sp - 2)] s t

/-- RTI (47_flag_system.md R233), with the spec's own choices D9 and D11. -/
def Obligations.RtiRestoresStatusAndPc : Prop :=
  ∀ s : State, ∃ t, exec .rti s = .next t ∧
    t.p = (s.read (word16 0x01 (s.sp + 1)) &&& 0xCF) ||| (s.p &&& 0x30) ∧
    t.pc = word16 (s.read (word16 0x01 (s.sp + 3))) (s.read (word16 0x01 (s.sp + 2))) ∧ t.sp = s.sp + 3 ∧
    Frame [.S] [.N, .V, .D, .I, .Z, .C] [] s t

/-- The byte layout of 60_exceptions.md R248, which the spec derives from R232 and R233. -/
def Obligations.RtiPullsTheRecordOfBrk : Prop :=
  ∀ s t u : State, exec .brk s = .next t → u.sp = t.sp →
    (∀ c ∈ [word16 0x01 s.sp, word16 0x01 (s.sp - 1), word16 0x01 (s.sp - 2)], u.read c = t.read c) →
    ∃ v, exec .rti u = .next v ∧ v.sp = s.sp ∧
      v.pc = s.pc + (if s.cfg.brkPcPushOffset = .two then 2 else 0) ∧
      (∀ f, f ≠ .B → f ≠ .five → v.flag f = s.flag f) ∧ (∀ f, f = .B ∨ f = .five → v.flag f = u.flag f)

/-- 10_state.md R29 and R31: I and D are read by nothing but the P push of PHP and BRK, so that addition is always binary
and nothing is masked. -/
def Obligations.InterruptDisableAndDecimalAreInert : Prop :=
  ∀ (i : Instr) (s s' t t' : State), AgreeButInert s s' → exec i s = .next t → exec i s' = .next t' →
    (i.mnemonic ≠ .php → i.mnemonic ≠ .brk → AgreeButInert t t') ∧
    (i.mnemonic = .php ∨ i.mnemonic = .brk → t' = { t with p := t'.p, mem := t'.mem } ∧
      (∀ f, f ≠ .I → f ≠ .D → t'.flag f = t.flag f) ∧
      ∀ c, c ≠ word16 0x01 (t.sp + 1) → t'.read c = t.read c)

/-- 20_memory.md R64 and R51: stores are seen by the next fetch and by the next read, with no action by the program, and an
instruction that stores into its own bytes executes as it was fetched. Where the refresh of 0x00FE stands in the clauses of
per_step and of the step is 40_execution_engine.md R103 and R110 with 90_conflicts.md C11; its draw at the counter `draws` is
the model's choice (log 2). The clause on an illegal byte is R102 with 30_encoding.md R88. -/
def Obligations.StoresAreSeenByTheNextFetch : Prop :=
  (∀ (i : Instr) (s t : State), exec i s = .next t → ∀ c : Addr, t.read c = memoryAfter i s c) ∧
  (∀ (i j : Instr) (s t : State) (rest : List Byte), exec i s = .next t → t.engine = .running →
    t.cfg.rndRefresh = .perLoad →
    decode [memoryAfter i s t.pc, memoryAfter i s (t.pc + 1), memoryAfter i s (t.pc + 2)] = .ok j rest →
    step t = exec j t) ∧
  (∀ (i j : Instr) (s t : State) (rest : List Byte) (fetched : Addr → Byte), exec i s = .next t →
    t.engine = .running → t.cfg.rndRefresh = .perStep →
    (∀ c, fetched c = if c = 0x00FE then Config.draw t.draws else memoryAfter i s c) →
    decode [memoryAfter i s t.pc, fetched (t.pc + 1), fetched (t.pc + 2)] = .ok j rest →
    step t = exec j t.refreshRandom) ∧
  (∀ (i : Instr) (s t : State), exec i s = .next t → t.engine = .running → memoryAfter i s t.pc ∈ illegalBytes →
    step t = .next { t with engine := .faulted (.unimplementedOpcode (memoryAfter i s t.pc) t.pc) }) ∧
  (∀ (i : Instr) (s t : State) (o : MemOperand), exec i s = .next t →
    operandValue t (.mem o) = some (memoryAfter i s (effectiveAddress t o))) ∧
  (∀ (i : Instr) (s t : State) (w : Addr), exec i s = .next t →
    ∃ u, exec (.ldxAbs w) t = .next u ∧ u.x = memoryAfter i s w ∧ u.a = t.a) ∧
  (∀ (s : State) (i : Instr) (rest : List Byte), s.engine = .running →
    decode [s.read s.pc, s.refreshRandom.read (s.pc + 1), s.refreshRandom.read (s.pc + 2)] = .ok i rest →
    ∃ t, step s = .next t ∧ exec i s.refreshRandom = .next t ∧ ∀ c, t.read c = memoryAfter i s.refreshRandom c)

/-- 20_memory.md R61 and 60_exceptions.md R255: the points between steps at which the host may act in a run. The form of an
observer, and that a load may be made there (R255: "any time"), are log 9. -/
def Obligations.TheHostActsAtEachEventOfARun : Prop :=
  (∀ (n : Nat) (obs : Observer) (s : State) (form : Form), s.engine = .running →
    opcodeForm (s.read s.pc) = some form → ∃ event t, observe s = some event ∧ step s = .next t ∧
      runState (n + 1) obs s = runState n (obs.after 1) (hostActions (obs 0 event t) t)) ∧
  (∀ (n : Nat) (obs : Observer) (s : State), s.engine = .running → opcodeForm (s.read s.pc) = none →
    observe s = none ∧
    runState (n + 1) obs s = { s with engine := .faulted (.unimplementedOpcode (s.read s.pc) s.pc) }) ∧
  (∀ (keys : List Byte) (s t : State), t = hostActions (keys.map .writeKey) s →
    t.read 0x00FF = keys.getLast?.getD (s.read 0x00FF) ∧ Frame [] [] [0x00FF] s t ∧ t.pc = s.pc ∧
    t = { s with mem := t.mem }) ∧
  (∀ (n : Nat) (obs : Observer) (s t : State) (event : Event) (origin : Addr) (bytes : List Byte),
    step s = .next t → observe s = some event → obs 0 event t = [.load origin bytes] →
    runState (n + 1) obs s = runState n (obs.after 1) (load origin bytes t)) ∧
  (∀ (n : Nat) (s t : State), SafeRun (n + 1) s → step s = .next t →
    SafeRun n t ∧ ∀ key, SafeRun n (hostKeyWrite key t))

/-- 10_state.md R32 and R33 (which the spec derives from D11, D12 and D34) and the canonical form (log 5), along every run and
through every host action of 60_exceptions.md R255. The form of an observer is the model's choice, and that it may load at an
event is deduced (log 9); the field `cfg` and the counter `draws` are the model's own (log 3, log 2). -/
def Obligations.RunsWithAnyObserverKeepTheInvariants : Prop :=
  ∀ (n : Nat) (obs : Observer) (s t : State), t = runState n obs s →
    (s.memoryInv → t.memoryInv) ∧ (s.statusBitsInv → t.statusBitsInv) ∧ t.cfg = s.cfg ∧ s.draws ≤ t.draws

/-- 60_exceptions.md R255: "a claim about a program that does not read 0x00FF is unaffected by the host". The form of an
observer, and what it may do, is the model's own (log 9), as are the fields `cfg` and `draws` that agree too (log 3, log 2).
The two runs are supplied with the same draws, because equal counters give equal draws (DESIGN CHOICE, log 15). -/
def Obligations.KeyWritesDoNotReachAProgramThatDoesNotReadThem : Prop :=
  (∀ s s' t : State, AgreeButKey s s' → 0x00FF ∉ stepReads s → step s = .next t →
    observe s' = observe s ∧ ∃ t', step s' = .next t' ∧ AgreeButKey t t') ∧
  (∀ (n : Nat) (obs obs' : Observer) (s s' : State), obs.keysOnly → obs'.keysOnly → AgreeButKey s s' →
    (∀ k, k < n → 0x00FF ∉ stepReads (runState k obs s)) →
    AgreeButKey (runState n obs s) (runState n obs' s') ∧ (run n obs' s').1 = (run n obs s).1)
end

