-- ==== Sys2Proof/Laws/State.lean ====
section
/-! SUPPORT. One lemma per field per update, true by `rfl` and tagged `@[simp]`, so that no later proof unfolds a record
update. -/

namespace Sys2Proof.Machine

section Fields

variable (s : State)

/-! #### write -/

@[simp] theorem State.write_a (ad : Addr) (v : Byte) : (s.write ad v).a = s.a := rfl
@[simp] theorem State.write_x (ad : Addr) (v : Byte) : (s.write ad v).x = s.x := rfl
@[simp] theorem State.write_y (ad : Addr) (v : Byte) : (s.write ad v).y = s.y := rfl
@[simp] theorem State.write_sp (ad : Addr) (v : Byte) : (s.write ad v).sp = s.sp := rfl
@[simp] theorem State.write_p (ad : Addr) (v : Byte) : (s.write ad v).p = s.p := rfl
@[simp] theorem State.write_pc (ad : Addr) (v : Byte) : (s.write ad v).pc = s.pc := rfl
@[simp] theorem State.write_engine (ad : Addr) (v : Byte) : (s.write ad v).engine = s.engine := rfl
@[simp] theorem State.write_mem (ad : Addr) (v : Byte) : (s.write ad v).mem = s.mem.write ad v := rfl
@[simp] theorem State.write_cfg (ad : Addr) (v : Byte) : (s.write ad v).cfg = s.cfg := rfl
@[simp] theorem State.write_draws (ad : Addr) (v : Byte) : (s.write ad v).draws = s.draws := rfl

/-! #### setFlag -/

@[simp] theorem State.setFlag_a (f : Flag) (b : Bool) : (s.setFlag f b).a = s.a := rfl
@[simp] theorem State.setFlag_x (f : Flag) (b : Bool) : (s.setFlag f b).x = s.x := rfl
@[simp] theorem State.setFlag_y (f : Flag) (b : Bool) : (s.setFlag f b).y = s.y := rfl
@[simp] theorem State.setFlag_sp (f : Flag) (b : Bool) : (s.setFlag f b).sp = s.sp := rfl
@[simp] theorem State.setFlag_p (f : Flag) (b : Bool) : (s.setFlag f b).p = Machine.setFlag s.p f b := rfl
@[simp] theorem State.setFlag_pc (f : Flag) (b : Bool) : (s.setFlag f b).pc = s.pc := rfl
@[simp] theorem State.setFlag_engine (f : Flag) (b : Bool) : (s.setFlag f b).engine = s.engine := rfl
@[simp] theorem State.setFlag_mem (f : Flag) (b : Bool) : (s.setFlag f b).mem = s.mem := rfl
@[simp] theorem State.setFlag_cfg (f : Flag) (b : Bool) : (s.setFlag f b).cfg = s.cfg := rfl
@[simp] theorem State.setFlag_draws (f : Flag) (b : Bool) : (s.setFlag f b).draws = s.draws := rfl

/-! #### setZN -/

@[simp] theorem State.setZN_a (v : Byte) : (s.setZN v).a = s.a := rfl
@[simp] theorem State.setZN_x (v : Byte) : (s.setZN v).x = s.x := rfl
@[simp] theorem State.setZN_y (v : Byte) : (s.setZN v).y = s.y := rfl
@[simp] theorem State.setZN_sp (v : Byte) : (s.setZN v).sp = s.sp := rfl
@[simp] theorem State.setZN_p (v : Byte) :
    (s.setZN v).p =
      Machine.setFlag (Machine.setFlag s.p .Z (v == 0)) .N (v.getLsbD 7) := rfl
@[simp] theorem State.setZN_pc (v : Byte) : (s.setZN v).pc = s.pc := rfl
@[simp] theorem State.setZN_engine (v : Byte) : (s.setZN v).engine = s.engine := rfl
@[simp] theorem State.setZN_mem (v : Byte) : (s.setZN v).mem = s.mem := rfl
@[simp] theorem State.setZN_cfg (v : Byte) : (s.setZN v).cfg = s.cfg := rfl
@[simp] theorem State.setZN_draws (v : Byte) : (s.setZN v).draws = s.draws := rfl

/-! #### push -/

@[simp] theorem State.push_a (b : Byte) : (s.push b).a = s.a := rfl
@[simp] theorem State.push_x (b : Byte) : (s.push b).x = s.x := rfl
@[simp] theorem State.push_y (b : Byte) : (s.push b).y = s.y := rfl
@[simp] theorem State.push_sp (b : Byte) : (s.push b).sp = s.sp - 1 := rfl
@[simp] theorem State.push_p (b : Byte) : (s.push b).p = s.p := rfl
@[simp] theorem State.push_pc (b : Byte) : (s.push b).pc = s.pc := rfl
@[simp] theorem State.push_engine (b : Byte) : (s.push b).engine = s.engine := rfl
@[simp] theorem State.push_mem (b : Byte) : (s.push b).mem = s.mem.write (stackCell s.sp) b := rfl
@[simp] theorem State.push_cfg (b : Byte) : (s.push b).cfg = s.cfg := rfl
@[simp] theorem State.push_draws (b : Byte) : (s.push b).draws = s.draws := rfl

/-! #### popped -/

@[simp] theorem State.popped_a : (s.popped).a = s.a := rfl
@[simp] theorem State.popped_x : (s.popped).x = s.x := rfl
@[simp] theorem State.popped_y : (s.popped).y = s.y := rfl
@[simp] theorem State.popped_sp : (s.popped).sp = s.sp + 1 := rfl
@[simp] theorem State.popped_p : (s.popped).p = s.p := rfl
@[simp] theorem State.popped_pc : (s.popped).pc = s.pc := rfl
@[simp] theorem State.popped_engine : (s.popped).engine = s.engine := rfl
@[simp] theorem State.popped_mem : (s.popped).mem = s.mem := rfl
@[simp] theorem State.popped_cfg : (s.popped).cfg = s.cfg := rfl
@[simp] theorem State.popped_draws : (s.popped).draws = s.draws := rfl

/-! #### push16 -/

@[simp] theorem State.push16_a (w : Addr) : (s.push16 w).a = s.a := rfl
@[simp] theorem State.push16_x (w : Addr) : (s.push16 w).x = s.x := rfl
@[simp] theorem State.push16_y (w : Addr) : (s.push16 w).y = s.y := rfl
@[simp] theorem State.push16_sp (w : Addr) : (s.push16 w).sp = s.sp - 1 - 1 := rfl
@[simp] theorem State.push16_p (w : Addr) : (s.push16 w).p = s.p := rfl
@[simp] theorem State.push16_pc (w : Addr) : (s.push16 w).pc = s.pc := rfl
@[simp] theorem State.push16_engine (w : Addr) : (s.push16 w).engine = s.engine := rfl
@[simp] theorem State.push16_mem (w : Addr) :
    (s.push16 w).mem =
      (s.mem.write (stackCell s.sp) (hi8 w)).write (stackCell (s.sp - 1)) (lo8 w) := rfl
@[simp] theorem State.push16_cfg (w : Addr) : (s.push16 w).cfg = s.cfg := rfl
@[simp] theorem State.push16_draws (w : Addr) : (s.push16 w).draws = s.draws := rfl

/-! #### popped16 -/

@[simp] theorem State.popped16_a : (s.popped16).a = s.a := rfl
@[simp] theorem State.popped16_x : (s.popped16).x = s.x := rfl
@[simp] theorem State.popped16_y : (s.popped16).y = s.y := rfl
@[simp] theorem State.popped16_sp : (s.popped16).sp = s.sp + 1 + 1 := rfl
@[simp] theorem State.popped16_p : (s.popped16).p = s.p := rfl
@[simp] theorem State.popped16_pc : (s.popped16).pc = s.pc := rfl
@[simp] theorem State.popped16_engine : (s.popped16).engine = s.engine := rfl
@[simp] theorem State.popped16_mem : (s.popped16).mem = s.mem := rfl
@[simp] theorem State.popped16_cfg : (s.popped16).cfg = s.cfg := rfl
@[simp] theorem State.popped16_draws : (s.popped16).draws = s.draws := rfl

/-! #### advance -/

@[simp] theorem State.advance_a (n : Nat) : (s.advance n).a = s.a := rfl
@[simp] theorem State.advance_x (n : Nat) : (s.advance n).x = s.x := rfl
@[simp] theorem State.advance_y (n : Nat) : (s.advance n).y = s.y := rfl
@[simp] theorem State.advance_sp (n : Nat) : (s.advance n).sp = s.sp := rfl
@[simp] theorem State.advance_p (n : Nat) : (s.advance n).p = s.p := rfl
@[simp] theorem State.advance_pc (n : Nat) : (s.advance n).pc = s.pc + BitVec.ofNat 16 n := rfl
@[simp] theorem State.advance_engine (n : Nat) : (s.advance n).engine = s.engine := rfl
@[simp] theorem State.advance_mem (n : Nat) : (s.advance n).mem = s.mem := rfl
@[simp] theorem State.advance_cfg (n : Nat) : (s.advance n).cfg = s.cfg := rfl
@[simp] theorem State.advance_draws (n : Nat) : (s.advance n).draws = s.draws := rfl

/-! #### jump -/

@[simp] theorem State.jump_a (t : Addr) : (s.jump t).a = s.a := rfl
@[simp] theorem State.jump_x (t : Addr) : (s.jump t).x = s.x := rfl
@[simp] theorem State.jump_y (t : Addr) : (s.jump t).y = s.y := rfl
@[simp] theorem State.jump_sp (t : Addr) : (s.jump t).sp = s.sp := rfl
@[simp] theorem State.jump_p (t : Addr) : (s.jump t).p = s.p := rfl
@[simp] theorem State.jump_pc (t : Addr) : (s.jump t).pc = t := rfl
@[simp] theorem State.jump_engine (t : Addr) : (s.jump t).engine = s.engine := rfl
@[simp] theorem State.jump_mem (t : Addr) : (s.jump t).mem = s.mem := rfl
@[simp] theorem State.jump_cfg (t : Addr) : (s.jump t).cfg = s.cfg := rfl
@[simp] theorem State.jump_draws (t : Addr) : (s.jump t).draws = s.draws := rfl

/-! #### raiseUnimplemented -/

@[simp] theorem State.raiseUnimplemented_a (op : Byte) : (s.raiseUnimplemented op).a = s.a := rfl
@[simp] theorem State.raiseUnimplemented_x (op : Byte) : (s.raiseUnimplemented op).x = s.x := rfl
@[simp] theorem State.raiseUnimplemented_y (op : Byte) : (s.raiseUnimplemented op).y = s.y := rfl
@[simp] theorem State.raiseUnimplemented_sp (op : Byte) : (s.raiseUnimplemented op).sp = s.sp := rfl
@[simp] theorem State.raiseUnimplemented_p (op : Byte) : (s.raiseUnimplemented op).p = s.p := rfl
@[simp] theorem State.raiseUnimplemented_pc (op : Byte) : (s.raiseUnimplemented op).pc = s.pc := rfl
@[simp] theorem State.raiseUnimplemented_engine (op : Byte) :
    (s.raiseUnimplemented op).engine =
      .faulted (.unimplementedOpcode op s.pc) := rfl
@[simp] theorem State.raiseUnimplemented_mem (op : Byte) : (s.raiseUnimplemented op).mem = s.mem := rfl
@[simp] theorem State.raiseUnimplemented_cfg (op : Byte) : (s.raiseUnimplemented op).cfg = s.cfg := rfl
@[simp] theorem State.raiseUnimplemented_draws (op : Byte) : (s.raiseUnimplemented op).draws = s.draws := rfl

/-! #### breakEntry -/

@[simp] theorem State.breakEntry_a : (s.breakEntry).a = s.a := rfl
@[simp] theorem State.breakEntry_x : (s.breakEntry).x = s.x := rfl
@[simp] theorem State.breakEntry_y : (s.breakEntry).y = s.y := rfl
@[simp] theorem State.breakEntry_sp : (s.breakEntry).sp = s.sp - 1 - 1 - 1 := rfl
@[simp] theorem State.breakEntry_p : (s.breakEntry).p = Machine.setFlag s.p .B true := rfl
@[simp] theorem State.breakEntry_pc : (s.breakEntry).pc = s.pc := rfl
@[simp] theorem State.breakEntry_engine : (s.breakEntry).engine = .halted := rfl
@[simp] theorem State.breakEntry_mem :
    (s.breakEntry).mem =
      ((s.mem.write (stackCell s.sp) (hi8 (s.pc + brkOffset s.cfg.brkPcPushOffset))).write (stackCell (s.sp - 1))
      (lo8 (s.pc + brkOffset s.cfg.brkPcPushOffset))).write (stackCell (s.sp - 1 - 1))
      (statusImage (Machine.setFlag s.p .B true)) := rfl
@[simp] theorem State.breakEntry_cfg : (s.breakEntry).cfg = s.cfg := rfl
@[simp] theorem State.breakEntry_draws : (s.breakEntry).draws = s.draws := rfl

/-! #### trapReturn -/

@[simp] theorem State.trapReturn_a : (s.trapReturn).a = s.a := rfl
@[simp] theorem State.trapReturn_x : (s.trapReturn).x = s.x := rfl
@[simp] theorem State.trapReturn_y : (s.trapReturn).y = s.y := rfl
@[simp] theorem State.trapReturn_sp : (s.trapReturn).sp = s.sp + 1 + 1 + 1 := rfl
@[simp] theorem State.trapReturn_p : (s.trapReturn).p = loadedStatus s.pulled s.p := rfl
@[simp] theorem State.trapReturn_pc : (s.trapReturn).pc = word16 s.popped.popped.pulled s.popped.pulled := rfl
@[simp] theorem State.trapReturn_engine : (s.trapReturn).engine = s.engine := rfl
@[simp] theorem State.trapReturn_mem : (s.trapReturn).mem = s.mem := rfl
@[simp] theorem State.trapReturn_cfg : (s.trapReturn).cfg = s.cfg := rfl
@[simp] theorem State.trapReturn_draws : (s.trapReturn).draws = s.draws := rfl

/-! #### flags and reads through updates that do not write them -/

@[simp] theorem State.write_flag (ad : Addr) (v : Byte) (g : Flag) : (s.write ad v).flag g = s.flag g := rfl
@[simp] theorem State.push_flag (b : Byte) (g : Flag) : (s.push b).flag g = s.flag g := rfl
@[simp] theorem State.popped_flag (g : Flag) : (s.popped).flag g = s.flag g := rfl
@[simp] theorem State.push16_flag (w : Addr) (g : Flag) : (s.push16 w).flag g = s.flag g := rfl
@[simp] theorem State.popped16_flag (g : Flag) : (s.popped16).flag g = s.flag g := rfl
@[simp] theorem State.advance_flag (n : Nat) (g : Flag) : (s.advance n).flag g = s.flag g := rfl
@[simp] theorem State.jump_flag (t : Addr) (g : Flag) : (s.jump t).flag g = s.flag g := rfl
@[simp] theorem State.raiseUnimplemented_flag (op : Byte) (g : Flag) : (s.raiseUnimplemented op).flag g = s.flag g := rfl
@[simp] theorem State.setFlag_read (f : Flag) (b : Bool) (i : Addr) : (s.setFlag f b).read i = s.read i := rfl
@[simp] theorem State.setZN_read (v : Byte) (i : Addr) : (s.setZN v).read i = s.read i := rfl
@[simp] theorem State.popped_read (i : Addr) : (s.popped).read i = s.read i := rfl
@[simp] theorem State.popped16_read (i : Addr) : (s.popped16).read i = s.read i := rfl
@[simp] theorem State.advance_read (n : Nat) (i : Addr) : (s.advance n).read i = s.read i := rfl
@[simp] theorem State.jump_read (t : Addr) (i : Addr) : (s.jump t).read i = s.read i := rfl
@[simp] theorem State.raiseUnimplemented_read (op : Byte) (i : Addr) : (s.raiseUnimplemented op).read i = s.read i := rfl
@[simp] theorem State.trapReturn_read (i : Addr) : (s.trapReturn).read i = s.read i := rfl

/-- A read sees memory alone. -/
theorem State.read_of_mem_eq (s t : State) (h : t.mem = s.mem) (i : Addr) : t.read i = s.read i := by
  simp [State.read, h]

/-- A flag sees P alone. -/
theorem State.flag_of_p_eq (s t : State) (h : t.p = s.p) (f : Flag) : t.flag f = s.flag f := by
  simp [State.flag, h]

end Fields

/-! #### the refresh of 0x00FE -/

section Refresh

variable (s : State)

@[simp] theorem State.refreshRandom_a : s.refreshRandom.a = s.a := by
  unfold State.refreshRandom; split <;> rfl
@[simp] theorem State.refreshRandom_x : s.refreshRandom.x = s.x := by
  unfold State.refreshRandom; split <;> rfl
@[simp] theorem State.refreshRandom_y : s.refreshRandom.y = s.y := by
  unfold State.refreshRandom; split <;> rfl
@[simp] theorem State.refreshRandom_sp : s.refreshRandom.sp = s.sp := by
  unfold State.refreshRandom; split <;> rfl
@[simp] theorem State.refreshRandom_p : s.refreshRandom.p = s.p := by
  unfold State.refreshRandom; split <;> rfl
@[simp] theorem State.refreshRandom_pc : s.refreshRandom.pc = s.pc := by
  unfold State.refreshRandom; split <;> rfl
@[simp] theorem State.refreshRandom_engine : s.refreshRandom.engine = s.engine := by
  unfold State.refreshRandom; split <;> rfl
@[simp] theorem State.refreshRandom_cfg : s.refreshRandom.cfg = s.cfg := by
  unfold State.refreshRandom; split <;> rfl

@[simp] theorem State.refreshRandom_flag (g : Flag) : s.refreshRandom.flag g = s.flag g := by
  simp [State.flag]

/-- Under `per_load` the refresh does nothing. -/
theorem State.refreshRandom_perLoad (h : s.cfg.rndRefresh = .perLoad) : s.refreshRandom = s := by
  simp [State.refreshRandom, h]

/-- Under `per_step` the refresh writes a draw to 0x00FE and counts it. -/
theorem State.refreshRandom_perStep (h : s.cfg.rndRefresh = .perStep) :
    s.refreshRandom = { s.write 0x00FE (Config.draw s.draws) with draws := s.draws + 1 } := by
  simp [State.refreshRandom, h]

end Refresh

end Sys2Proof.Machine
end

