-- ==== Sys2Proof/Laws/Flags.lean ====
section
/-! SUPPORT. The laws of the status register: a flag write sets that flag and disturbs no other, and what the two status
images hold flag by flag. -/

namespace Sys2Proof.Machine

/-- A flag reads back as it was written. -/
@[simp] theorem getFlag_setFlag_same (p : Byte) (f : Flag) (b : Bool) : getFlag (setFlag p f b) f = b := by
  cases f <;> cases b <;> simp [getFlag, setFlag, Flag.mask, Flag.pos]

/-- A flag write disturbs no other flag. -/
theorem getFlag_setFlag_ne (p : Byte) (b : Bool) {f g : Flag} (h : g ≠ f) :
    getFlag (setFlag p f b) g = getFlag p g := by
  cases f <;> cases g <;> first | exact absurd rfl h | (cases b <;> simp [getFlag, setFlag, Flag.mask, Flag.pos])

/-- What a flag reads after a flag write. -/
theorem getFlag_setFlag (p : Byte) (f g : Flag) (b : Bool) :
    getFlag (setFlag p f b) g = if g = f then b else getFlag p g := by
  split
  · next h => subst h; exact getFlag_setFlag_same p g b
  · next h => exact getFlag_setFlag_ne p b h

/-- Two status bytes with the same eight flags are the same byte. -/
theorem eq_of_getFlag_eq {p q : Byte} (h : ∀ f, getFlag p f = getFlag q f) : p = q := by
  apply BitVec.eq_of_getLsbD_eq
  intro i hi
  have hc := h .C; have hz := h .Z; have hi' := h .I; have hd := h .D
  have hb := h .B; have h5 := h .five; have hv := h .V; have hn := h .N
  simp only [getFlag, Flag.pos] at hc hz hi' hd hb h5 hv hn
  interval_cases i <;> assumption

/-- The pushed image has bits 5 and 4 set and the other flags of P. -/
theorem getFlag_statusImage (p : Byte) (f : Flag) :
    getFlag (statusImage p) f = (getFlag p f || (f == .B || f == .five)) := by
  cases f <;> simp [getFlag, statusImage, Flag.pos]

/-- A pulled status gives the six flags of the pulled byte; bits 5 and 4 stay. -/
theorem getFlag_loadedStatus (v p : Byte) (f : Flag) :
    getFlag (loadedStatus v p) f = if f = .B ∨ f = .five then getFlag p f else getFlag v f := by
  cases f <;> simp [getFlag, loadedStatus, Flag.pos]

@[simp] theorem State.setFlag_flag_same (s : State) (f : Flag) (b : Bool) : (s.setFlag f b).flag f = b := by
  simp [State.flag]

theorem State.setFlag_flag_ne (s : State) (b : Bool) {f g : Flag} (h : g ≠ f) :
    (s.setFlag f b).flag g = s.flag g := by
  simp [State.flag, getFlag_setFlag_ne _ _ h]

/-- What a flag of a state reads after a flag write. -/
theorem State.setFlag_flag (s : State) (f g : Flag) (b : Bool) :
    (s.setFlag f b).flag g = if g = f then b else s.flag g := by
  simp [State.flag, getFlag_setFlag]

/-- What the flags read after `SetZN`. -/
theorem State.setZN_flag (s : State) (v : Byte) (g : Flag) :
    (s.setZN v).flag g = if g = .N then v.getLsbD 7 else if g = .Z then v == 0 else s.flag g := by
  simp [State.setZN, State.setFlag_flag]

end Sys2Proof.Machine
end

