-- ==== Sys2Proof/Laws/Memory.lean ====
section
/-! SUPPORT. The laws of memory: a read after a write, and that every write keeps the canonical form. -/

namespace Sys2Proof.Machine

/-! #### lists of cells -/

theorem lookupCell_insertCell (m : Memory) (k j : Nat) (v : Byte) :
    lookupCell j (insertCell k v m) = if j = k then v else lookupCell j m := by
  induction m with
  | nil => simp [insertCell, lookupCell, eq_comm]
  | cons c rest ih =>
    by_cases h1 : c.1 < k
    · by_cases h2 : c.1 = j
      · subst h2
        simp [insertCell, lookupCell, h1, Nat.ne_of_lt h1]
      · simp [insertCell, lookupCell, h1, h2, ih]
    · by_cases h2 : c.1 = k
      · by_cases h3 : j = k
        · simp [insertCell, lookupCell, h2, h3]
        · have : ¬ k = j := fun h => h3 h.symm
          simp [insertCell, lookupCell, h2, h3, this]
      · by_cases h3 : j = k
        · simp [insertCell, lookupCell, h1, h2, h3]
        · have : ¬ k = j := fun h => h3 h.symm
          simp [insertCell, lookupCell, h1, h2, h3, this]

theorem lookupCell_eraseCell (m : Memory) (k j : Nat) :
    lookupCell j (eraseCell k m) = if j = k then 0x00 else lookupCell j m := by
  induction m with
  | nil => simp [eraseCell, lookupCell]
  | cons c rest ih =>
    by_cases h1 : c.1 = k
    · by_cases h2 : j = k
      · rw [eraseCell, if_pos h1, ih, if_pos h2, if_pos h2]
      · have : ¬ k = j := fun h => h2 h.symm
        simp [eraseCell, lookupCell, h1, h2, this, ih]
    · by_cases h2 : c.1 = j
      · have : ¬ j = k := by omega
        simp [eraseCell, lookupCell, h2, this]
      · simp [eraseCell, lookupCell, h1, h2, ih]

theorem mem_insertCell {m : Memory} {k : Nat} {v : Byte} {c : Host.Cell} (h : c ∈ insertCell k v m) :
    c = (k, v) ∨ c ∈ m := by
  induction m with
  | nil => simpa [insertCell] using h
  | cons d rest ih =>
    unfold insertCell at h
    split at h
    · rcases List.mem_cons.1 h with h | h
      · exact .inr (by simp [h])
      · rcases ih h with h | h
        · exact .inl h
        · exact .inr (List.mem_cons_of_mem _ h)
    · split at h
      · rcases List.mem_cons.1 h with h | h
        · exact .inl h
        · exact .inr (List.mem_cons_of_mem _ h)
      · rcases List.mem_cons.1 h with h | h
        · exact .inl h
        · exact .inr h

theorem self_mem_insertCell (m : Memory) (k : Nat) (v : Byte) : (k, v) ∈ insertCell k v m := by
  induction m with
  | nil => simp [insertCell]
  | cons d rest ih =>
    unfold insertCell
    split
    · exact List.mem_cons_of_mem _ ih
    · split <;> simp

/-- Setting a cell lists every address that was listed. -/
theorem insertCell_lists {m : Memory} {k j : Nat} {v : Byte} (h : ∃ c ∈ m, c.1 = j) :
    ∃ c ∈ insertCell k v m, c.1 = j := by
  induction m with
  | nil => simp at h
  | cons d rest ih =>
    obtain ⟨c, hc, rfl⟩ := h
    unfold insertCell
    split
    · rcases List.mem_cons.1 hc with rfl | hc
      · exact ⟨c, by simp, rfl⟩
      · obtain ⟨e, he, hj⟩ := ih ⟨c, hc, rfl⟩
        exact ⟨e, List.mem_cons_of_mem _ he, hj⟩
    · split
      · next h2 =>
        rcases List.mem_cons.1 hc with rfl | hc
        · exact ⟨(k, v), by simp, h2.symm⟩
        · exact ⟨c, List.mem_cons_of_mem _ hc, rfl⟩
      · exact ⟨c, List.mem_cons_of_mem _ hc, rfl⟩

theorem insertCell_rising {m : Memory} (k : Nat) (v : Byte) (h : m.Pairwise (fun c d => c.1 < d.1)) :
    (insertCell k v m).Pairwise (fun c d => c.1 < d.1) := by
  induction m with
  | nil => simp [insertCell]
  | cons d rest ih =>
    obtain ⟨hd, hr⟩ := List.pairwise_cons.1 h
    unfold insertCell
    split
    · next h1 =>
      refine List.pairwise_cons.2 ⟨fun c hc => ?_, ih hr⟩
      rcases mem_insertCell hc with rfl | hc
      · exact h1
      · exact hd c hc
    · split
      · next h2 => exact List.pairwise_cons.2 ⟨fun c hc => h2 ▸ hd c hc, hr⟩
      · next h1 h2 =>
        refine List.pairwise_cons.2 ⟨fun c hc => ?_, h⟩
        have hk : k < d.1 := by omega
        rcases List.mem_cons.1 hc with rfl | hc
        · exact hk
        · exact Nat.lt_trans hk (hd c hc)

theorem mem_eraseCell {m : Memory} {k : Nat} {c : Host.Cell} : c ∈ eraseCell k m ↔ c ∈ m ∧ c.1 ≠ k := by
  induction m with
  | nil => simp [eraseCell]
  | cons d rest ih =>
    unfold eraseCell
    split
    · next h =>
      rw [ih]
      constructor
      · exact fun ⟨h1, h2⟩ => ⟨List.mem_cons_of_mem _ h1, h2⟩
      · rintro ⟨h1, h2⟩
        rcases List.mem_cons.1 h1 with rfl | h1
        · exact absurd h h2
        · exact ⟨h1, h2⟩
    · next h =>
      rw [List.mem_cons, ih, List.mem_cons]
      constructor
      · rintro (rfl | ⟨h1, h2⟩)
        · exact ⟨.inl rfl, h⟩
        · exact ⟨.inr h1, h2⟩
      · rintro ⟨rfl | h1, h2⟩
        · exact .inl rfl
        · exact .inr ⟨h1, h2⟩

theorem eraseCell_rising {m : Memory} (k : Nat) (h : m.Pairwise (fun c d => c.1 < d.1)) :
    (eraseCell k m).Pairwise (fun c d => c.1 < d.1) := by
  induction m with
  | nil => simp [eraseCell]
  | cons d rest ih =>
    obtain ⟨hd, hr⟩ := List.pairwise_cons.1 h
    unfold eraseCell
    split
    · exact ih hr
    · exact List.pairwise_cons.2 ⟨fun c hc => hd c (mem_eraseCell.1 hc).1, ih hr⟩

/-! #### memory -/

/-- What a cell reads after a write: the byte written there, and every other cell as before (20_memory.md R51). -/
theorem Memory.read_write (m : Memory) (a b : Addr) (v : Byte) :
    (m.write a v).read b = if b = a then v else m.read b := by
  have hab : (b.toNat = a.toNat) = (b = a) := by simp [BitVec.toNat_inj]
  unfold Memory.write Memory.read
  split
  · simp only [lookupCell_insertCell, hab]
  · next h =>
    have hv : v = 0x00 := by simp at h; exact h.2
    simp only [lookupCell_eraseCell, hab, hv]

@[simp] theorem Memory.read_write_same (m : Memory) (a : Addr) (v : Byte) : (m.write a v).read a = v := by
  simp [Memory.read_write]

theorem Memory.read_write_ne (m : Memory) {a b : Addr} (v : Byte) (h : b ≠ a) : (m.write a v).read b = m.read b := by
  simp [Memory.read_write, h]

/-- Every write keeps the canonical form. -/
theorem Memory.write_wf {m : Memory} (h : m.wf) (a : Addr) (v : Byte) : (m.write a v).wf := by
  obtain ⟨h1, h2, h3, h4⟩ := h
  unfold Memory.write
  split
  · next hw =>
    refine ⟨insertCell_rising _ _ h1, fun c hc => ?_, insertCell_lists h3, insertCell_lists h4⟩
    rcases mem_insertCell hc with rfl | hc
    · exact ⟨a.isLt, by simpa using hw⟩
    · exact h2 c hc
  · next hw =>
    have hs : seededCell a.toNat = false := by simp at hw; exact hw.1
    have keep : ∀ j, seededCell j = true → (∃ c ∈ m, c.1 = j) → ∃ c ∈ eraseCell a.toNat m, c.1 = j := by
      rintro j hj ⟨c, hc, rfl⟩
      exact ⟨c, mem_eraseCell.2 ⟨hc, fun e => by rw [e, hs] at hj; cases hj⟩, rfl⟩
    exact ⟨eraseCell_rising _ h1, fun c hc => h2 c (mem_eraseCell.1 hc).1, keep _ rfl h3, keep _ rfl h4⟩

/-- The all-zero memory is in canonical form. -/
theorem Memory.zeroed_wf : Memory.zeroed.wf := by decide

/-- Memory at reset is in canonical form. -/
theorem Memory.reset_wf : Memory.reset.wf := by
  refine ⟨by simp [Memory.reset], fun c hc => ?_, ⟨(0x00FE, Config.draw 0), by simp [Memory.reset], rfl⟩,
    ⟨(0x00FF, Config.keyDefaultByte), by simp [Memory.reset], rfl⟩⟩
  simp [Memory.reset] at hc
  rcases hc with rfl | rfl <;> simp [seededCell]

/-! #### the operations over a state -/

theorem State.read_write (s : State) (a b : Addr) (v : Byte) :
    (s.write a v).read b = if b = a then v else s.read b := Memory.read_write s.mem a b v

@[simp] theorem State.read_write_same (s : State) (a : Addr) (v : Byte) : (s.write a v).read a = v := by
  simp [State.read_write]

/-- What a cell reads after a push. -/
theorem State.push_read (s : State) (b : Byte) (i : Addr) :
    (s.push b).read i = if i = stackCell s.sp then b else s.read i := State.read_write s _ i b

/-- A pull after a push gives the byte pushed and the old stack pointer, for every stack pointer (10_state.md R23). -/
theorem State.pulled_push (s : State) (b : Byte) : (s.push b).pulled = b ∧ (s.push b).popped.sp = s.sp := by
  constructor
  · simp [State.pulled, State.push_read]
  · simp

theorem State.write_wf {s : State} (h : s.mem.wf) (a : Addr) (v : Byte) : (s.write a v).mem.wf := Memory.write_wf h a v

theorem State.push_wf {s : State} (h : s.mem.wf) (b : Byte) : (s.push b).mem.wf := Memory.write_wf h _ _

theorem State.push16_wf {s : State} (h : s.mem.wf) (w : Addr) : (s.push16 w).mem.wf := State.push_wf (State.push_wf h _) _

theorem State.breakEntry_wf {s : State} (h : s.mem.wf) : s.breakEntry.mem.wf :=
  Memory.write_wf (Memory.write_wf (Memory.write_wf h _ _) _ _) _ _

theorem State.trapReturn_wf {s : State} (h : s.mem.wf) : s.trapReturn.mem.wf := h

theorem State.refreshRandom_wf {s : State} (h : s.mem.wf) : s.refreshRandom.mem.wf := by
  unfold State.refreshRandom
  split
  · exact h
  · exact State.write_wf h 0x00FE _

theorem State.placeInstruction_wf {s : State} (h : s.mem.wf) (nbits w : Nat) : (s.placeInstruction nbits w).mem.wf :=
  Memory.write_wf (Memory.write_wf (Memory.write_wf h _ _) _ _) _ _

end Sys2Proof.Machine
end

