-- ==== Sys2Proof/Laws/Exec.lean ====
section
/-! SUPPORT. What every instruction does, said once by mnemonic (`exec_means`), so that a proof about an instruction in
all its modes cites one fact and never unfolds an arm of `exec`. -/

namespace Sys2Proof.Machine

/-- A `value` handler in any of its modes: the operand value exists, and the handler runs on it before the advance. -/
def HandlesValue (h : Byte → State → State) (i : Instr) (s : State) : Prop :=
  ∃ m, operandValue s i.operand = some m ∧ exec i s = .next ((h m s).advance i.length)

/-- A store in any of its modes. -/
def StoresByte (v : Byte) (i : Instr) (s : State) : Prop :=
  ∃ ea, operandAddress s i.operand = some ea ∧ exec i s = .next ((s.write ea v).advance i.length)

/-- A read-modify-write handler, in Accumulator mode and in the memory modes. -/
def ModifiesOperand (h : Byte → State → Modified) (i : Instr) (s : State) : Prop :=
  (i.mode = .acc ∧ i.length = 1 ∧
    exec i s = .next ({ (h s.a s).state with a := (h s.a s).result }.advance i.length)) ∨
  (i.mode ≠ .acc ∧ ∃ ea, operandAddress s i.operand = some ea ∧
    exec i s = .next (((h (s.read ea) s).state.write ea (h (s.read ea) s).result).advance i.length))

/-- An Implied handler that advances. -/
def HandlesImplied (h : State → State) (i : Instr) (s : State) : Prop :=
  i.mode = .imp ∧ exec i s = .next ((h s).advance i.length)

/-- A branch. -/
def BranchesOn (cond : State → Bool) (i : Instr) (s : State) : Prop :=
  ∃ d, i.operand = .relative d ∧
    exec i s = .next (if cond s then s.jump (branchTarget s.pc d) else s.advance 2)

/-- The meaning of an instruction `i` of mnemonic `n`. -/
def Means (n : Mnemonic) (i : Instr) (s : State) : Prop :=
  match n with
  | .lda => HandlesValue loadA i s
  | .ldx => HandlesValue loadX i s
  | .ldy => HandlesValue loadY i s
  | .sta => StoresByte s.a i s
  | .stx => StoresByte s.x i s
  | .sty => StoresByte s.y i s
  | .tax => HandlesImplied transferAX i s
  | .tay => HandlesImplied transferAY i s
  | .txa => HandlesImplied transferXA i s
  | .tya => HandlesImplied transferYA i s
  | .tsx => HandlesImplied transferSX i s
  | .txs => HandlesImplied transferXS i s
  | .pha => HandlesImplied pushA i s
  | .php => HandlesImplied pushP i s
  | .pla => HandlesImplied pullA i s
  | .plp => HandlesImplied pullP i s
  | .adc => HandlesValue addWithCarry i s
  | .sbc => HandlesValue subtractWithBorrow i s
  | .cmp => HandlesValue compareA i s
  | .cpx => HandlesValue compareX i s
  | .cpy => HandlesValue compareY i s
  | .inc => i.mode ≠ .acc ∧ ModifiesOperand incremented i s
  | .dec => i.mode ≠ .acc ∧ ModifiesOperand decremented i s
  | .inx => HandlesImplied incrementX i s
  | .iny => HandlesImplied incrementY i s
  | .dex => HandlesImplied decrementX i s
  | .dey => HandlesImplied decrementY i s
  | .and => HandlesValue andA i s
  | .ora => HandlesValue orA i s
  | .eor => HandlesValue eorA i s
  | .bit => HandlesValue bitTest i s
  | .asl => ModifiesOperand aslByte i s
  | .lsr => ModifiesOperand lsrByte i s
  | .rol => ModifiesOperand rolByte i s
  | .ror => ModifiesOperand rorByte i s
  | .jmp => ∃ ea, operandAddress s i.operand = some ea ∧ exec i s = .next (s.jump ea)
  | .jsr => ∃ w, i = .jsr w ∧ exec i s = .next ((s.push16 (s.pc + 2)).jump w)
  | .rts => i = .rts ∧ exec i s = .next (s.popped16.jump (s.pulled16 + 1))
  | .bcc => BranchesOn condBcc i s
  | .bcs => BranchesOn condBcs i s
  | .beq => BranchesOn condBeq i s
  | .bne => BranchesOn condBne i s
  | .bmi => BranchesOn condBmi i s
  | .bpl => BranchesOn condBpl i s
  | .bvc => BranchesOn condBvc i s
  | .bvs => BranchesOn condBvs i s
  | .clc => HandlesImplied (·.setFlag .C false) i s
  | .sec => HandlesImplied (·.setFlag .C true) i s
  | .cli => HandlesImplied (·.setFlag .I false) i s
  | .sei => HandlesImplied (·.setFlag .I true) i s
  | .cld => HandlesImplied (·.setFlag .D false) i s
  | .sed => HandlesImplied (·.setFlag .D true) i s
  | .clv => HandlesImplied (·.setFlag .V false) i s
  | .nop => HandlesImplied id i s
  | .brk => i = .brk ∧ exec i s = .next s.breakEntry
  | .rti => i = .rti ∧ exec i s = .next s.trapReturn

/-- Every instruction has the meaning of its mnemonic. -/
theorem exec_means (i : Instr) (s : State) : Means i.mnemonic i s := by
  cases i <;> first
    | exact ⟨rfl, rfl⟩
    | exact ⟨_, rfl, rfl⟩
    | exact .inl ⟨rfl, rfl, rfl⟩
    | exact .inr ⟨(by intro h; cases h), _, rfl, rfl⟩
    | exact ⟨(by intro h; cases h), .inr ⟨(by intro h; cases h), _, rfl, rfl⟩⟩

/-- The meaning of an instruction whose mnemonic is known: `exec_means_of h s` unfolds to the line of `Means`. -/
theorem exec_means_of {i : Instr} {n : Mnemonic} (h : i.mnemonic = n) (s : State) : Means n i s :=
  h ▸ exec_means i s

end Sys2Proof.Machine
end

