-- ==== Sys2Proof/Laws/Step.lean ====
section
/-! SUPPORT. What a step can do, said once (`step_cases`), and what the opcode lookup and the decoder give for a byte that
has a table row. -/

namespace Sys2Proof

/-- A row that is found stands in the table. -/
theorem findForm_mem {op : Byte} {form : Form} {rows : List (Byte × Form)} (h : findForm op rows = some form) :
    (op, form) ∈ rows := by
  induction rows with
  | nil => simp [findForm] at h
  | cons row rest ih =>
    unfold findForm at h
    split at h
    · next e =>
      cases h
      rw [← e]
      exact List.mem_cons_self
    · exact List.mem_cons_of_mem _ (ih h)

/-- A legal opcode byte and its form are a row of the opcode table. -/
theorem opcodeForm_mem {op : Byte} {form : Form} (h : opcodeForm op = some form) : (op, form) ∈ opcodeTable :=
  findForm_mem h

/-- Bytes that begin with an illegal opcode do not decode. -/
theorem decode_illegal {op : Byte} (rest : List Byte) (h : opcodeForm op = none) :
    decode (op :: rest) = .error (.unimplementedOpcode op) := by
  cases rest <;> simp [decode, h]

/-- Three bytes that begin with a legal opcode decode to the form's instruction. -/
theorem decode_form {op : Byte} {form : Form} (b1 b2 : Byte) (h : opcodeForm op = some form) :
    decode [op, b1, b2] = .ok (form.build b1 b2) ([b1, b2].drop (form.length - 1)) := by
  cases form <;> simp [decode, h, Form.build, Form.length]

namespace Machine

/-- The fetch of an illegal opcode. -/
theorem State.fetch_none {s : State} (h : opcodeForm (s.read s.pc) = none) : s.fetch = none := by
  simp [State.fetch, State.opcodeByte, h]

/-- The fetch of a legal opcode. -/
theorem State.fetch_some {s : State} {form : Form} (h : opcodeForm (s.read s.pc) = some form) :
    s.fetch = some ⟨form.build (s.refreshRandom.read (s.pc + 1)) (s.refreshRandom.read (s.pc + 2)),
      s.refreshRandom⟩ := by
  simp [State.fetch, State.opcodeByte, h, State.operandByte1, State.operandByte2]

/-- A step that fetches an illegal opcode. -/
theorem step_illegal {s : State} (hr : s.engine = .running) (h : opcodeForm (s.read s.pc) = none) :
    step s = .next (s.raiseUnimplemented (s.read s.pc)) := by
  simp [step, hr, State.fetch_none h, State.opcodeByte]

/-- A step that fetches a legal opcode. -/
theorem step_legal {s : State} {form : Form} (hr : s.engine = .running) (h : opcodeForm (s.read s.pc) = some form) :
    step s =
      exec (form.build (s.refreshRandom.read (s.pc + 1)) (s.refreshRandom.read (s.pc + 2))) s.refreshRandom := by
  simp [step, hr, State.fetch_some h]

/-- A step outside Running is no transition. -/
theorem step_stopped {s : State} (h : s.engine ≠ .running) : ∃ r, step s = .fault r := by
  cases he : s.engine with
  | running => exact absurd he h
  | halted => exact ⟨.stepWhileHalted, by simp only [step, he]⟩
  | faulted r => exact ⟨.stepWhileFaulted r, by simp only [step, he]⟩

/-- Everything a step can do: it starts in Running, and it either raises the one fault of the machine or runs the
instruction its bytes decode to, on the state after the refresh. -/
theorem step_cases {s t : State} (h : step s = .next t) :
    s.engine = .running ∧
    ((opcodeForm (s.read s.pc) = none ∧ t = s.raiseUnimplemented (s.read s.pc)) ∨
     (∃ form, opcodeForm (s.read s.pc) = some form ∧
      exec (form.build (s.refreshRandom.read (s.pc + 1)) (s.refreshRandom.read (s.pc + 2))) s.refreshRandom
        = .next t)) := by
  by_cases hr : s.engine = .running
  · refine ⟨hr, ?_⟩
    cases hf : opcodeForm (s.read s.pc) with
    | none =>
      rw [step_illegal hr hf] at h
      exact .inl ⟨rfl, (Host.Outcome.next.inj h).symm⟩
    | some form => exact .inr ⟨form, rfl, by rw [← step_legal hr hf, h]⟩
  · obtain ⟨r, e⟩ := step_stopped hr
    rw [h] at e
    cases e

/-- The event of a step that fetches a legal opcode. -/
theorem observe_legal {s : State} {form : Form} (hr : s.engine = .running)
    (h : opcodeForm (s.read s.pc) = some form) :
    observe s = some ⟨s.pc, s.read s.pc,
      observedOperand (form.build (s.refreshRandom.read (s.pc + 1)) (s.refreshRandom.read (s.pc + 2)))
        s.refreshRandom⟩ := by
  simp [observe, hr, State.fetch_some h, State.opcodeByte]

/-- No event without a legal opcode fetched in Running. -/
theorem observe_none {s : State} (h : s.engine ≠ .running ∨ opcodeForm (s.read s.pc) = none) : observe s = none := by
  cases he : s.engine with
  | running =>
    rcases h with h | h
    · exact absurd he h
    · simp [observe, he, State.fetch_none h]
  | halted => simp [observe, he]
  | faulted r => simp [observe, he]

end Machine

end Sys2Proof
end

