-- ==== Sys2Proof/Laws/Host.lean ====
section
/-! SUPPORT. What the host's operations keep: memory in canonical form through the copy of an image, load and the key
write; what the actions at an event change; and the induction over a run under any observer (`runState_keeps`). -/

namespace Sys2Proof.Machine

/-- Copying an image keeps memory canonical. -/
theorem copyImage_wf {m : Memory} (h : m.wf) (a : Addr) (bytes : List Byte) : (copyImage m a bytes).wf := by
  induction bytes generalizing m a with
  | nil => exact h
  | cons b rest ih => exact ih (Memory.write_wf h a b) (a + 1)

/-- The memory of a loaded machine. -/
theorem load_mem (origin : Addr) (bytes : List Byte) (s : State) :
    (load origin bytes s).mem =
      ((copyImage Memory.zeroed origin bytes).write 0x00FE (Config.draw s.draws)).write 0x00FF s.cfg.keyDefault := rfl

/-- The memory of a loaded machine is canonical. -/
theorem load_wf (origin : Addr) (bytes : List Byte) (s : State) : (load origin bytes s).mem.wf := by
  rw [load_mem]
  exact Memory.write_wf (Memory.write_wf (copyImage_wf Memory.zeroed_wf origin bytes) _ _) _ _

/-! ### What the host does at an event -/

@[simp] theorem hostActions_nil (s : State) : hostActions [] s = s := rfl

@[simp] theorem hostActions_cons (action : HostAction) (rest : List HostAction) (s : State) :
    hostActions (action :: rest) s = hostActions rest (action.apply s) := rfl

/-- What each host action keeps, all host actions at an event keep. -/
theorem hostActions_keep {Inv : State → Prop} (h : ∀ (action : HostAction) (s : State), Inv s → Inv (action.apply s))
    (actions : List HostAction) {s : State} (hs : Inv s) : Inv (hostActions actions s) := by
  induction actions generalizing s with
  | nil => exact hs
  | cons action rest ih => exact ih (h action s hs)

/-- Host actions keep memory canonical. -/
theorem HostAction.apply_wf (action : HostAction) {s : State} (h : s.mem.wf) : (action.apply s).mem.wf := by
  cases action with
  | load origin bytes => exact load_wf origin bytes s
  | writeKey key => exact State.write_wf h _ _

/-- The host's key writes change the key cell and nothing else. -/
theorem hostActions_keys {actions : List HostAction} (h : ∀ action ∈ actions, ∃ key, action = .writeKey key)
    (s : State) :
    hostActions actions s = { s with mem := (hostActions actions s).mem } ∧
    ∀ c, c ≠ 0x00FF → (hostActions actions s).read c = s.read c := by
  induction actions generalizing s with
  | nil => exact ⟨rfl, fun _ _ => rfl⟩
  | cons action rest ih =>
    obtain ⟨key, rfl⟩ := h action List.mem_cons_self
    obtain ⟨e, r⟩ := ih (fun a ha => h a (List.mem_cons_of_mem _ ha)) (hostKeyWrite key s)
    refine ⟨e, fun c hc => (r c hc).trans ?_⟩
    exact Memory.read_write_ne _ _ hc

@[simp] theorem Observer.respond_none (obs : Observer) (t : State) : obs.respond none t = t := rfl

@[simp] theorem Observer.respond_some (obs : Observer) (event : Event) (t : State) :
    obs.respond (some event) t = hostActions (obs 0 event t) t := rfl

@[simp] theorem Observer.silent_respond (event : Option Event) (t : State) : Observer.silent.respond event t = t := by
  cases event <;> rfl

@[simp] theorem Observer.silent_after (k : Nat) : Observer.silent.after k = Observer.silent := rfl

@[simp] theorem Observer.after_zero (obs : Observer) : obs.after 0 = obs := by
  funext n
  simp only [Observer.after, Nat.zero_add]

@[simp] theorem Observer.after_after (obs : Observer) (j k : Nat) : (obs.after j).after k = obs.after (j + k) := by
  funext n
  simp only [Observer.after, Nat.add_assoc]

theorem Observer.keysOnly_after {obs : Observer} (h : obs.keysOnly) (k : Nat) : (obs.after k).keysOnly :=
  fun n => h (k + n)

/-! ### Runs -/

/-- A run of no steps. -/
@[simp] theorem runState_zero (obs : Observer) (s : State) : runState 0 obs s = s := rfl

/-- A run whose first step has a next state. -/
theorem runState_succ {s t : State} (h : step s = .next t) (n : Nat) (obs : Observer) :
    runState (n + 1) obs s = runState n (obs.after 1) (obs.respond (observe s) t) := by
  simp only [runState, h]

/-- A run from outside Running does nothing. -/
theorem runState_stopped {s : State} (h : s.engine ≠ .running) (n : Nat) (obs : Observer) :
    runState n obs s = s := by
  cases n with
  | zero => rfl
  | succ n =>
    obtain ⟨r, e⟩ := step_stopped h
    simp only [runState, e]

/-- The induction over a run, once: what every step and every host action keep, every run keeps, whatever the
observer. -/
theorem runState_keeps {Inv : State → Prop} (hstep : ∀ s t, Inv s → step s = .next t → Inv t)
    (hhost : ∀ (action : HostAction) (s : State), Inv s → Inv (action.apply s))
    (n : Nat) (obs : Observer) {s : State} (hs : Inv s) : Inv (runState n obs s) := by
  induction n generalizing obs s with
  | zero => exact hs
  | succ n ih =>
    cases h : step s with
    | next t =>
      rw [runState_succ h]
      refine ih _ ?_
      cases observe s with
      | none => exact hstep s t hs h
      | some event => exact hostActions_keep hhost _ (hstep s t hs h)
    | fault r => simpa only [runState, h] using hs
    | refused r => simpa only [runState, h] using hs

end Sys2Proof.Machine
end

