-- ==== Sys2Proof/Laws/Word.lean ====
section
/-! SUPPORT. The laws of bytes and addresses: halves and concatenation as numbers, and which addresses of a page are
the same. -/

namespace Sys2Proof

theorem hi8_toNat (w : Addr) : (hi8 w).toNat = w.toNat / 256 := by
  have := w.isLt
  simp only [hi8, BitVec.extractLsb'_toNat, Nat.shiftRight_eq_div_pow]
  omega

theorem lo8_toNat (w : Addr) : (lo8 w).toNat = w.toNat % 256 := by
  simp [lo8, BitVec.extractLsb'_toNat]

theorem word16_toNat (h l : Byte) : (word16 h l).toNat = h.toNat * 256 + l.toNat := by
  have h1 : (word16 h l).toNat = h.toNat <<< 8 ||| l.toNat := BitVec.toNat_append h l
  rw [h1, Nat.shiftLeft_eq, Nat.mul_comm, ← Nat.two_pow_add_eq_or_of_lt l.isLt]

@[simp] theorem word16_hi8_lo8 (w : Addr) : word16 (hi8 w) (lo8 w) = w := by
  apply BitVec.eq_of_toNat_eq
  rw [word16_toNat, hi8_toNat, lo8_toNat]
  omega

@[simp] theorem hi8_word16 (h l : Byte) : hi8 (word16 h l) = h := by
  have := l.isLt
  apply BitVec.eq_of_toNat_eq
  rw [hi8_toNat, word16_toNat]
  omega

@[simp] theorem lo8_word16 (h l : Byte) : lo8 (word16 h l) = l := by
  have := l.isLt
  apply BitVec.eq_of_toNat_eq
  rw [lo8_toNat, word16_toNat]
  omega

/-- Two addresses of one page are the same when their low bytes are. -/
theorem word16_inj (h l m : Byte) : word16 h l = word16 h m ↔ l = m := by
  constructor
  · intro e
    have := congrArg lo8 e
    simpa using this
  · rintro rfl
    rfl

/-- The next address stays in the page unless the low byte is 0xFF. -/
theorem word16_succ {w : Addr} (h : lo8 w ≠ 0xFF) : word16 (hi8 w) (lo8 w + 1) = w + 1 := by
  have hw : w.toNat % 256 ≠ 255 := by
    intro e
    exact h (BitVec.eq_of_toNat_eq (by rw [lo8_toNat]; simpa using e))
  have hlt := w.isLt
  apply BitVec.eq_of_toNat_eq
  rw [word16_toNat, hi8_toNat, BitVec.toNat_add, BitVec.toNat_add, lo8_toNat]
  have e : (1 : Byte).toNat = 1 ∧ (1 : Addr).toNat = 1 := ⟨rfl, rfl⟩
  omega

namespace Machine

/-- Two stack cells are the same when the stack pointers are. -/
theorem stackCell_inj (p q : Byte) : stackCell p = stackCell q ↔ p = q := word16_inj _ _ _

theorem zeroPage_toNat (b : Byte) : (zeroPage b).toNat = b.toNat := by
  simp [zeroPage, word16_toNat]

/-- An index added to an address, modulo 0x10000. -/
theorem add_zeroPage_toNat (w : Addr) (b : Byte) : (w + zeroPage b).toNat = (w.toNat + b.toNat) % 0x10000 := by
  rw [BitVec.toNat_add, zeroPage_toNat]

end Machine

end Sys2Proof
end

