-- ==== Sys2Proof/Laws/Stack.lean ====
section
/-! SUPPORT. What memory reads after a 16-bit push and after BRK's trap entry, cell by cell, and that the cells of
neighbouring stack pointers differ. -/

namespace Sys2Proof.Machine

theorem stackCell_ne_one (p : Byte) : stackCell p ≠ stackCell (p - 1) := by
  rw [Ne, stackCell_inj]
  bv_omega

theorem stackCell_ne_two (p : Byte) : stackCell p ≠ stackCell (p - 2) := by
  rw [Ne, stackCell_inj]
  bv_omega

/-- A cell after a 16-bit push. -/
theorem State.push16_read (s : State) (w c : Addr) :
    (s.push16 w).read c =
      if c = stackCell (s.sp - 1) then lo8 w else if c = stackCell s.sp then hi8 w else s.read c := by
  rw [State.push16, State.push_read, State.push_read, State.push_sp]

/-- A cell after BRK's trap entry. -/
theorem State.breakEntry_read (s : State) (c : Addr) :
    s.breakEntry.read c =
      if c = stackCell (s.sp - 2) then statusImage s.breakEntry.p
      else if c = stackCell (s.sp - 1) then lo8 (s.pc + brkOffset s.cfg.brkPcPushOffset)
      else if c = stackCell s.sp then hi8 (s.pc + brkOffset s.cfg.brkPcPushOffset)
      else s.read c := by
  have e : s.sp - 1 - 1 = s.sp - 2 := by bv_omega
  simp only [State.read, State.breakEntry_mem, State.breakEntry_p, Memory.read_write, e]

end Sys2Proof.Machine
end

