-- ==== Sys2Proof/Tests/Slice0.lean ====
section
/-! SUPPORT. The model's own tests. The words and the expected results are the spec's (30_encoding.md R87,
95_test_vectors.md), never the model's own answers; the witnesses show that the hypotheses of the statements can be
met. -/

namespace Sys2Proof.Tests

open Sys2Proof.Machine Sys2Proof.Claims

/-! ### The check of descriptors -/

/-- A `value` handler with a branch mode (41_addressing_modes.md R132). -/
theorem test_wellFormed_value_not_rel : Descriptor.wellFormed ⟨0xA9, .lda, .rel, 2⟩ = false := by decide

/-- A `value` handler with Accumulator (R122). -/
theorem test_wellFormed_value_not_acc : Descriptor.wellFormed ⟨0xA9, .lda, .acc, 2⟩ = false := by decide

/-- A store with Immediate (R123). -/
theorem test_wellFormed_address_not_imm : Descriptor.wellFormed ⟨0x89, .sta, .imm, 2⟩ = false := by decide

/-- A read-modify-write with Indirect (R133). -/
theorem test_wellFormed_rmw_not_ind : Descriptor.wellFormed ⟨0xE6, .inc, .ind, 5⟩ = false := by decide

/-- A read-modify-write with Immediate (R123). -/
theorem test_wellFormed_rmw_not_imm : Descriptor.wellFormed ⟨0xE6, .inc, .imm, 5⟩ = false := by decide

/-- A branch with a mode that is not Relative (R132). -/
theorem test_wellFormed_branch_not_abs : Descriptor.wellFormed ⟨0xD0, .bne, .abs, 2⟩ = false := by decide

/-- An Implied handler with an operand (R121, R134). -/
theorem test_wellFormed_none_not_zp : Descriptor.wellFormed ⟨0xAA, .tax, .zp, 2⟩ = false := by decide

/-- ZeroPageY outside LDX and STX (R126). -/
theorem test_wellFormed_zpy_only_ldx_stx : Descriptor.wellFormed ⟨0xB7, .lda, .zpy, 4⟩ = false := by decide

/-- Indirect outside JMP (R133). -/
theorem test_wellFormed_ind_only_jmp : Descriptor.wellFormed ⟨0x6C, .jsr, .ind, 5⟩ = false := by decide

/-- Accumulator outside the four shifts (R122). -/
theorem test_wellFormed_acc_only_shifts : Descriptor.wellFormed ⟨0x3A, .dec, .acc, 2⟩ = false := by decide

/-- Two rows of one opcode byte (30_encoding.md R86). -/
theorem test_table_no_two_rows : tableWellFormed [⟨0xEA, .nop, .imp, 2⟩, ⟨0xEA, .clc, .imp, 2⟩] = false := by decide

/-- A table with an ill-formed row. -/
theorem test_table_no_bad_row : tableWellFormed [⟨0xEA, .nop, .imp, 2⟩, ⟨0x89, .sta, .imm, 2⟩] = false := by decide

set_option maxRecDepth 8000 in
/-- The model's opcode table is well formed. -/
theorem test_table_wellFormed : tableWellFormed descriptors = true := by decide

/-! ### Decoding: one word of every constructor, from 30_encoding.md R87 -/

theorem test_decode_loads :
    decode [0xA9, 0x12] = .ok (.ldaImm 0x12) [] ∧
    decode [0xA5, 0x12] = .ok (.ldaZp 0x12) [] ∧
    decode [0xB5, 0x12] = .ok (.ldaZpx 0x12) [] ∧
    decode [0xAD, 0x34, 0x12] = .ok (.ldaAbs 0x1234) [] ∧
    decode [0xBD, 0x34, 0x12] = .ok (.ldaAbsx 0x1234) [] ∧
    decode [0xB9, 0x34, 0x12] = .ok (.ldaAbsy 0x1234) [] ∧
    decode [0xA1, 0x12] = .ok (.ldaIndx 0x12) [] ∧
    decode [0xB1, 0x12] = .ok (.ldaIndy 0x12) [] ∧
    decode [0xA2, 0x12] = .ok (.ldxImm 0x12) [] ∧
    decode [0xA6, 0x12] = .ok (.ldxZp 0x12) [] ∧
    decode [0xB6, 0x12] = .ok (.ldxZpy 0x12) [] ∧
    decode [0xAE, 0x34, 0x12] = .ok (.ldxAbs 0x1234) [] ∧
    decode [0xBE, 0x34, 0x12] = .ok (.ldxAbsy 0x1234) [] ∧
    decode [0xA0, 0x12] = .ok (.ldyImm 0x12) [] ∧
    decode [0xA4, 0x12] = .ok (.ldyZp 0x12) [] ∧
    decode [0xB4, 0x12] = .ok (.ldyZpx 0x12) [] ∧
    decode [0xAC, 0x34, 0x12] = .ok (.ldyAbs 0x1234) [] ∧
    decode [0xBC, 0x34, 0x12] = .ok (.ldyAbsx 0x1234) [] := by
  decide

theorem test_decode_stores :
    decode [0x85, 0x12] = .ok (.staZp 0x12) [] ∧
    decode [0x95, 0x12] = .ok (.staZpx 0x12) [] ∧
    decode [0x8D, 0x34, 0x12] = .ok (.staAbs 0x1234) [] ∧
    decode [0x9D, 0x34, 0x12] = .ok (.staAbsx 0x1234) [] ∧
    decode [0x99, 0x34, 0x12] = .ok (.staAbsy 0x1234) [] ∧
    decode [0x81, 0x12] = .ok (.staIndx 0x12) [] ∧
    decode [0x91, 0x12] = .ok (.staIndy 0x12) [] ∧
    decode [0x86, 0x12] = .ok (.stxZp 0x12) [] ∧
    decode [0x96, 0x12] = .ok (.stxZpy 0x12) [] ∧
    decode [0x8E, 0x34, 0x12] = .ok (.stxAbs 0x1234) [] ∧
    decode [0x84, 0x12] = .ok (.styZp 0x12) [] ∧
    decode [0x94, 0x12] = .ok (.styZpx 0x12) [] ∧
    decode [0x8C, 0x34, 0x12] = .ok (.styAbs 0x1234) [] := by
  decide

theorem test_decode_transfers :
    decode [0xAA] = .ok .tax [] ∧
    decode [0xA8] = .ok .tay [] ∧
    decode [0x8A] = .ok .txa [] ∧
    decode [0x98] = .ok .tya [] ∧
    decode [0xBA] = .ok .tsx [] ∧
    decode [0x9A] = .ok .txs [] := by
  decide

theorem test_decode_stack :
    decode [0x48] = .ok .pha [] ∧
    decode [0x08] = .ok .php [] ∧
    decode [0x68] = .ok .pla [] ∧
    decode [0x28] = .ok .plp [] := by
  decide

theorem test_decode_adc :
    decode [0x69, 0x12] = .ok (.adcImm 0x12) [] ∧
    decode [0x65, 0x12] = .ok (.adcZp 0x12) [] ∧
    decode [0x75, 0x12] = .ok (.adcZpx 0x12) [] ∧
    decode [0x6D, 0x34, 0x12] = .ok (.adcAbs 0x1234) [] ∧
    decode [0x7D, 0x34, 0x12] = .ok (.adcAbsx 0x1234) [] ∧
    decode [0x79, 0x34, 0x12] = .ok (.adcAbsy 0x1234) [] ∧
    decode [0x61, 0x12] = .ok (.adcIndx 0x12) [] ∧
    decode [0x71, 0x12] = .ok (.adcIndy 0x12) [] := by
  decide

theorem test_decode_sbc :
    decode [0xE9, 0x12] = .ok (.sbcImm 0x12) [] ∧
    decode [0xE5, 0x12] = .ok (.sbcZp 0x12) [] ∧
    decode [0xF5, 0x12] = .ok (.sbcZpx 0x12) [] ∧
    decode [0xED, 0x34, 0x12] = .ok (.sbcAbs 0x1234) [] ∧
    decode [0xFD, 0x34, 0x12] = .ok (.sbcAbsx 0x1234) [] ∧
    decode [0xF9, 0x34, 0x12] = .ok (.sbcAbsy 0x1234) [] ∧
    decode [0xE1, 0x12] = .ok (.sbcIndx 0x12) [] ∧
    decode [0xF1, 0x12] = .ok (.sbcIndy 0x12) [] := by
  decide

theorem test_decode_compares :
    decode [0xC9, 0x12] = .ok (.cmpImm 0x12) [] ∧
    decode [0xC5, 0x12] = .ok (.cmpZp 0x12) [] ∧
    decode [0xD5, 0x12] = .ok (.cmpZpx 0x12) [] ∧
    decode [0xCD, 0x34, 0x12] = .ok (.cmpAbs 0x1234) [] ∧
    decode [0xDD, 0x34, 0x12] = .ok (.cmpAbsx 0x1234) [] ∧
    decode [0xD9, 0x34, 0x12] = .ok (.cmpAbsy 0x1234) [] ∧
    decode [0xC1, 0x12] = .ok (.cmpIndx 0x12) [] ∧
    decode [0xD1, 0x12] = .ok (.cmpIndy 0x12) [] ∧
    decode [0xE0, 0x12] = .ok (.cpxImm 0x12) [] ∧
    decode [0xE4, 0x12] = .ok (.cpxZp 0x12) [] ∧
    decode [0xEC, 0x34, 0x12] = .ok (.cpxAbs 0x1234) [] ∧
    decode [0xC0, 0x12] = .ok (.cpyImm 0x12) [] ∧
    decode [0xC4, 0x12] = .ok (.cpyZp 0x12) [] ∧
    decode [0xCC, 0x34, 0x12] = .ok (.cpyAbs 0x1234) [] := by
  decide

theorem test_decode_inc_dec :
    decode [0xE6, 0x12] = .ok (.incZp 0x12) [] ∧
    decode [0xF6, 0x12] = .ok (.incZpx 0x12) [] ∧
    decode [0xEE, 0x34, 0x12] = .ok (.incAbs 0x1234) [] ∧
    decode [0xFE, 0x34, 0x12] = .ok (.incAbsx 0x1234) [] ∧
    decode [0xC6, 0x12] = .ok (.decZp 0x12) [] ∧
    decode [0xD6, 0x12] = .ok (.decZpx 0x12) [] ∧
    decode [0xCE, 0x34, 0x12] = .ok (.decAbs 0x1234) [] ∧
    decode [0xDE, 0x34, 0x12] = .ok (.decAbsx 0x1234) [] ∧
    decode [0xE8] = .ok .inx [] ∧
    decode [0xC8] = .ok .iny [] ∧
    decode [0xCA] = .ok .dex [] ∧
    decode [0x88] = .ok .dey [] := by
  decide

theorem test_decode_and_ora :
    decode [0x29, 0x12] = .ok (.andImm 0x12) [] ∧
    decode [0x25, 0x12] = .ok (.andZp 0x12) [] ∧
    decode [0x35, 0x12] = .ok (.andZpx 0x12) [] ∧
    decode [0x2D, 0x34, 0x12] = .ok (.andAbs 0x1234) [] ∧
    decode [0x3D, 0x34, 0x12] = .ok (.andAbsx 0x1234) [] ∧
    decode [0x39, 0x34, 0x12] = .ok (.andAbsy 0x1234) [] ∧
    decode [0x21, 0x12] = .ok (.andIndx 0x12) [] ∧
    decode [0x31, 0x12] = .ok (.andIndy 0x12) [] ∧
    decode [0x09, 0x12] = .ok (.oraImm 0x12) [] ∧
    decode [0x05, 0x12] = .ok (.oraZp 0x12) [] ∧
    decode [0x15, 0x12] = .ok (.oraZpx 0x12) [] ∧
    decode [0x0D, 0x34, 0x12] = .ok (.oraAbs 0x1234) [] ∧
    decode [0x1D, 0x34, 0x12] = .ok (.oraAbsx 0x1234) [] ∧
    decode [0x19, 0x34, 0x12] = .ok (.oraAbsy 0x1234) [] ∧
    decode [0x01, 0x12] = .ok (.oraIndx 0x12) [] ∧
    decode [0x11, 0x12] = .ok (.oraIndy 0x12) [] := by
  decide

theorem test_decode_eor_bit :
    decode [0x49, 0x12] = .ok (.eorImm 0x12) [] ∧
    decode [0x45, 0x12] = .ok (.eorZp 0x12) [] ∧
    decode [0x55, 0x12] = .ok (.eorZpx 0x12) [] ∧
    decode [0x4D, 0x34, 0x12] = .ok (.eorAbs 0x1234) [] ∧
    decode [0x5D, 0x34, 0x12] = .ok (.eorAbsx 0x1234) [] ∧
    decode [0x59, 0x34, 0x12] = .ok (.eorAbsy 0x1234) [] ∧
    decode [0x41, 0x12] = .ok (.eorIndx 0x12) [] ∧
    decode [0x51, 0x12] = .ok (.eorIndy 0x12) [] ∧
    decode [0x24, 0x12] = .ok (.bitZp 0x12) [] ∧
    decode [0x2C, 0x34, 0x12] = .ok (.bitAbs 0x1234) [] := by
  decide

theorem test_decode_shifts :
    decode [0x0A] = .ok .aslAcc [] ∧
    decode [0x06, 0x12] = .ok (.aslZp 0x12) [] ∧
    decode [0x16, 0x12] = .ok (.aslZpx 0x12) [] ∧
    decode [0x0E, 0x34, 0x12] = .ok (.aslAbs 0x1234) [] ∧
    decode [0x1E, 0x34, 0x12] = .ok (.aslAbsx 0x1234) [] ∧
    decode [0x4A] = .ok .lsrAcc [] ∧
    decode [0x46, 0x12] = .ok (.lsrZp 0x12) [] ∧
    decode [0x56, 0x12] = .ok (.lsrZpx 0x12) [] ∧
    decode [0x4E, 0x34, 0x12] = .ok (.lsrAbs 0x1234) [] ∧
    decode [0x5E, 0x34, 0x12] = .ok (.lsrAbsx 0x1234) [] := by
  decide

theorem test_decode_rotates :
    decode [0x2A] = .ok .rolAcc [] ∧
    decode [0x26, 0x12] = .ok (.rolZp 0x12) [] ∧
    decode [0x36, 0x12] = .ok (.rolZpx 0x12) [] ∧
    decode [0x2E, 0x34, 0x12] = .ok (.rolAbs 0x1234) [] ∧
    decode [0x3E, 0x34, 0x12] = .ok (.rolAbsx 0x1234) [] ∧
    decode [0x6A] = .ok .rorAcc [] ∧
    decode [0x66, 0x12] = .ok (.rorZp 0x12) [] ∧
    decode [0x76, 0x12] = .ok (.rorZpx 0x12) [] ∧
    decode [0x6E, 0x34, 0x12] = .ok (.rorAbs 0x1234) [] ∧
    decode [0x7E, 0x34, 0x12] = .ok (.rorAbsx 0x1234) [] := by
  decide

theorem test_decode_jumps :
    decode [0x4C, 0x34, 0x12] = .ok (.jmpAbs 0x1234) [] ∧
    decode [0x6C, 0x34, 0x12] = .ok (.jmpInd 0x1234) [] ∧
    decode [0x20, 0x34, 0x12] = .ok (.jsr 0x1234) [] ∧
    decode [0x60] = .ok .rts [] := by
  decide

theorem test_decode_branches :
    decode [0x90, 0x12] = .ok (.bcc 0x12) [] ∧
    decode [0xB0, 0x12] = .ok (.bcs 0x12) [] ∧
    decode [0xF0, 0x12] = .ok (.beq 0x12) [] ∧
    decode [0xD0, 0x12] = .ok (.bne 0x12) [] ∧
    decode [0x30, 0x12] = .ok (.bmi 0x12) [] ∧
    decode [0x10, 0x12] = .ok (.bpl 0x12) [] ∧
    decode [0x50, 0x12] = .ok (.bvc 0x12) [] ∧
    decode [0x70, 0x12] = .ok (.bvs 0x12) [] := by
  decide

theorem test_decode_flags :
    decode [0x18] = .ok .clc [] ∧
    decode [0x38] = .ok .sec [] ∧
    decode [0x58] = .ok .cli [] ∧
    decode [0x78] = .ok .sei [] ∧
    decode [0xD8] = .ok .cld [] ∧
    decode [0xF8] = .ok .sed [] ∧
    decode [0xB8] = .ok .clv [] ∧
    decode [0xEA] = .ok .nop [] := by
  decide

theorem test_decode_break :
    decode [0x00] = .ok .brk [] ∧
    decode [0x40] = .ok .rti [] := by
  decide

/-! Bit by bit, one word of each family: the bits of 30_encoding.md R87's opcode byte, then the operand bytes. -/

theorem test_bits_loads_stores : decode [0b10101101, 0b00110100, 0b00010010] = .ok (.ldaAbs 0b0001001000110100) []
  := by
  decide

theorem test_bits_transfers_stack : decode [0b10111010] = .ok .tsx [] := by decide

theorem test_bits_arithmetic : decode [0b11101001, 0b10000001] = .ok (.sbcImm 0b10000001) [] := by decide

theorem test_bits_logic_shift : decode [0b01111110, 0b00000001, 0b10000000] = .ok (.rorAbsx 0b1000000000000001) []
  := by
  decide

theorem test_bits_control_flow : decode [0b11010000, 0b11111000] = .ok (.bne 0b11111000) [] := by decide

theorem test_bits_flags_system : decode [0b01000000, 0b11111111] = .ok .rti [0b11111111] := by decide

/-- Illegal bytes and bytes that end too early (30_encoding.md R88, R89). -/
theorem test_decode_errors :
    decode [] = .error .noBytes ∧ decode [0x02, 0xA9] = .error (.unimplementedOpcode 0x02) ∧
    decode [0xFF] = .error (.unimplementedOpcode 0xFF) ∧ decode [0xA9] = .error (.missingOperandBytes 0xA9) ∧
    decode [0xAD, 0x34] = .error (.missingOperandBytes 0xAD) := by
  decide

/-- The word interface: the first byte in the low bits, the bits above `nbits` zero. -/
theorem test_table_words :
    decodeTableWord 16 0x42A9 = some (.ldaImm 0x42) ∧ decodeTableWord 24 0x12348D = some (.staAbs 0x1234) ∧
    decodeTableWord 8 0x40 = some .rti ∧ decodeTableWord 8 0xFFA9 = some (.ldaImm 0x00) ∧
    decodeTableWord 8 0x02 = none := by
  decide

/-! ### One step: vectors of 95_test_vectors.md, at most two for each mnemonic -/

/-- The vectors' start state (95_test_vectors.md, section 0). -/
def start : State := State.reset

/-- Bytes placed at PC. -/
def place (bytes : List Byte) (s : State) : State := { s with mem := copyImage s.mem s.pc bytes }

/-- Whether a step from a state has a next state that meets a check. -/
def after (s : State) (check : State → Bool) : Bool :=
  match step s with
  | .next t => check t
  | .fault _ | .refused _ => false

/-- `page_crossed` of the instruction at PC. -/
def crossed (s : State) : Option Bool := s.fetch.map fun f => (resolve f.instr f.state).pageCrossed

theorem test_lda_V4 :
    after (place [0xB5, 0xFF] (({ start with x := 0x02 }.write 0x0001 0x7E).write 0x0101 0xEE)) (fun t => t.a ==
      0x7E && t.p == 0x00 && t.pc == 0x0602) = true := by
  decide

theorem test_lda_V9 :
    after (place [0xA1, 0xFB] (((({ start with x := 0x04 }.write 0x0000 0x12).write 0x00FF 0x34).write 0x0100
      0x99).write 0x1234 0x5A)) (fun t => t.a == 0x5A && t.p == 0x00 && t.pc == 0x0602) = true := by
  decide

theorem test_ldx_V14 :
    after (place [0xB6, 0xF8] ({ start with y := 0x10 }.write 0x0008 0x81)) (fun t => t.x == 0x81 && t.p == 0x80 &&
      t.pc == 0x0602) = true := by
  decide

theorem test_ldx_V13 :
    after (place [0xA2, 0x00] { start with x := 0x55, p := 0x80 }) (fun t => t.x == 0x00 && t.p == 0x02 && t.pc ==
      0x0602) = true := by
  decide

theorem test_ldy_V17 :
    after (place [0xBC, 0x80, 0x03] ({ start with x := 0x80 }.write 0x0400 0x00)) (fun t => t.p == 0x02 && t.pc ==
      0x0603) = true ∧
    crossed (place [0xBC, 0x80, 0x03] ({ start with x := 0x80 }.write 0x0400 0x00)) = some true := by
  decide

theorem test_ldy_V16 :
    after (place [0xAC, 0x00, 0x03] (start.write 0x0300 0x80)) (fun t => t.y == 0x80 && t.p == 0x80 && t.pc ==
      0x0603) = true := by
  decide

theorem test_sta_V20 :
    after (place [0x9D, 0xFF, 0x01] { start with a := 0xAA, x := 0x01 }) (fun t => t.p == 0x00 && t.pc == 0x0603 &&
      t.read 0x0200 == 0xAA) = true ∧
    crossed (place [0x9D, 0xFF, 0x01] { start with a := 0xAA, x := 0x01 }) = some true := by
  decide

theorem test_sta_V18 :
    after (place [0x85, 0x10] { start with a := 0x00, p := 0x80 }) (fun t => t.p == 0x80 && t.pc == 0x0602) = true
      := by
  decide

theorem test_stx_V26 :
    after (place [0x96, 0xFF] { start with x := 0x44, y := 0x01 }) (fun t => t.p == 0x00 && t.pc == 0x0602 &&
      t.read 0x0000 == 0x44) = true := by
  decide

theorem test_sty_V30 :
    after (place [0x8C, 0xFF, 0x01] { start with y := 0x5A }) (fun t => t.p == 0x00 && t.pc == 0x0603 && t.read
      0x01FF == 0x5A) = true := by
  decide

theorem test_tax_V33 :
    after (place [0xAA] { start with a := 0x00, x := 0x33, p := 0x80 }) (fun t => t.x == 0x00 && t.p == 0x02 &&
      t.pc == 0x0601) = true := by
  decide

theorem test_tay_V34 :
    after (place [0xA8] { start with a := 0x00, y := 0x01 }) (fun t => t.y == 0x00 && t.p == 0x02 && t.pc ==
      0x0601) = true := by
  decide

theorem test_txa_V35 :
    after (place [0x8A] { start with x := 0x7F, p := 0x82 }) (fun t => t.a == 0x7F && t.p == 0x00 && t.pc ==
      0x0601) = true := by
  decide

theorem test_tya_V36 :
    after (place [0x98] { start with y := 0xFF }) (fun t => t.a == 0xFF && t.p == 0x80 && t.pc == 0x0601) = true := by
  decide

theorem test_tsx_V37 :
    after (place [0xBA] { start with x := 0x12 }) (fun t => t.x == 0x00 && t.p == 0x02 && t.pc == 0x0601 && t.sp ==
      0x00) = true := by
  decide

theorem test_txs_V40 :
    after (place [0x9A] { start with x := 0x00, sp := 0x80, p := 0x80 }) (fun t => t.sp == 0x00 && t.p == 0x80 &&
      t.pc == 0x0601) = true := by
  decide

theorem test_pha_V42 :
    after (place [0x48] { start with a := 0x42 }) (fun t => t.sp == 0xFF && t.p == 0x00 && t.pc == 0x0601 && t.read
      0x0100 == 0x42) = true := by
  decide

theorem test_php_V44 :
    after (place [0x08] { start with sp := 0xFF, p := 0x83 }) (fun t => t.sp == 0xFE && t.p == 0x83 && t.pc ==
      0x0601 && t.read 0x01FF == 0xB3) = true := by
  decide

theorem test_pla_V47 :
    after (place [0x68] ({ start with sp := 0xFF }.write 0x0100 0x80)) (fun t => t.a == 0x80 && t.sp == 0x00 && t.p
      == 0x80 && t.pc == 0x0601) = true := by
  decide

theorem test_plp_V49 :
    after (place [0x28] ({ start with sp := 0xFE }.write 0x01FF 0xB3)) (fun t => t.sp == 0xFF && t.p == 0x83 &&
      t.pc == 0x0601) = true := by
  decide

theorem test_plp_V52 :
    after (place [0x28] ({ start with sp := 0xFE, p := 0x10 }.write 0x01FF 0x00)) (fun t => t.sp == 0xFF && t.p ==
      0x10 && t.pc == 0x0601) = true := by
  decide

theorem test_adc_V67 :
    after (place [0x69, 0x09] { start with a := 0x09, p := 0x08 }) (fun t => t.a == 0x12 && t.p == 0x08 && t.pc ==
      0x0602) = true := by
  decide

theorem test_adc_V72 :
    after (place [0x71, 0x20] ((({ start with a := 0x7F, y := 0x01 }.write 0x0020 0x00).write 0x0021 0x03).write
      0x0301 0x01)) (fun t => t.a == 0x80 && t.p == 0xC0 && t.pc == 0x0602) = true := by
  decide

theorem test_sbc_V84 :
    after (place [0xE9, 0x01] { start with a := 0x80, p := 0x01 }) (fun t => t.a == 0x7F && t.p == 0x41 && t.pc ==
      0x0602) = true := by
  decide

theorem test_sbc_V90 :
    after (place [0xF9, 0x80, 0x02] ({ start with a := 0x00, y := 0x80, p := 0x01 }.write 0x0300 0x01)) (fun t =>
      t.a == 0xFF && t.p == 0x80 && t.pc == 0x0603) = true ∧
    crossed (place [0xF9, 0x80, 0x02] ({ start with a := 0x00, y := 0x80, p := 0x01 }.write 0x0300 0x01)) = some
      true := by
  decide

theorem test_cmp_S4_2 :
    after (place [0xC9, 0x10] { start with a := 0x10, p := 0xC1 }) (fun t => t.p == 0x43 && t.pc == 0x0602) = true
      := by
  decide

theorem test_cmp_S4_6 :
    after (place [0xC9, 0x80] { start with a := 0x00, p := 0x01 }) (fun t => t.p == 0x80 && t.pc == 0x0602) = true
      := by
  decide

theorem test_cpx_V93 :
    after (place [0xE0, 0x03] { start with x := 0x02, p := 0x41 }) (fun t => t.p == 0xC0 && t.pc == 0x0602) = true
      := by
  decide

theorem test_cpy_V98 :
    after (place [0xCC, 0x00, 0x03] ({ start with y := 0xC0 }.write 0x0300 0x40)) (fun t => t.p == 0x81 && t.pc ==
      0x0603) = true := by
  decide

theorem test_inc_V108 :
    after (place [0xF6, 0xFF] ({ start with x := 0x01 }.write 0x0000 0x0F)) (fun t => t.p == 0x00 && t.pc == 0x0602
      && t.read 0x0000 == 0x10) = true := by
  decide

theorem test_inc_V110 :
    after (place [0xFE, 0xFF, 0x01] ({ start with x := 0x01 }.write 0x0200 0xFE)) (fun t => t.p == 0x80 && t.pc ==
      0x0603 && t.read 0x0200 == 0xFF) = true ∧
    crossed (place [0xFE, 0xFF, 0x01] ({ start with x := 0x01 }.write 0x0200 0xFE)) = some true := by
  decide

theorem test_dec_V111 :
    after (place [0xC6, 0x10] (start.write 0x0010 0x00)) (fun t => t.p == 0x80 && t.pc == 0x0602 && t.read 0x0010
      == 0xFF) = true := by
  decide

theorem test_inx_V116 :
    after (place [0xE8] { start with x := 0xFF, p := 0x80 }) (fun t => t.x == 0x00 && t.p == 0x02 && t.pc ==
      0x0601) = true := by
  decide

theorem test_iny_V118 :
    after (place [0xC8] { start with y := 0xFF }) (fun t => t.y == 0x00 && t.p == 0x02 && t.pc == 0x0601) = true := by
  decide

theorem test_dex_V120 :
    after (place [0xCA] { start with x := 0x00 }) (fun t => t.x == 0xFF && t.p == 0x80 && t.pc == 0x0601) = true := by
  decide

theorem test_dey_V124 :
    after (place [0x88] { start with y := 0x80 }) (fun t => t.y == 0x7F && t.p == 0x00 && t.pc == 0x0601) = true := by
  decide

theorem test_and_V128 :
    after (place [0x29, 0xFF] { start with a := 0x80, p := 0x02 }) (fun t => t.p == 0x80 && t.pc == 0x0602) = true
      := by
  decide

theorem test_and_V131 :
    after (place [0x21, 0x10] ((({ start with a := 0xFF, x := 0x00 }.write 0x0010 0x00).write 0x0011 0x03).write
      0x0300 0x81)) (fun t => t.a == 0x81 && t.p == 0x80 && t.pc == 0x0602) = true := by
  decide

theorem test_ora_V134 :
    after (place [0x05, 0x10] ({ start with a := 0x01, p := 0x41 }.write 0x0010 0x02)) (fun t => t.a == 0x03 && t.p
      == 0x41 && t.pc == 0x0602) = true := by
  decide

theorem test_eor_V140 :
    after (place [0x55, 0x10] ({ start with a := 0x01, x := 0x01 }.write 0x0011 0x03)) (fun t => t.a == 0x02 && t.p
      == 0x00 && t.pc == 0x0602) = true := by
  decide

theorem test_bit_V147 :
    after (place [0x24, 0x10] ({ start with a := 0x01 }.write 0x0010 0xC0)) (fun t => t.p == 0xC2 && t.pc ==
      0x0602) = true := by
  decide

theorem test_bit_V148 :
    after (place [0x24, 0x10] ({ start with a := 0x00, p := 0xC1 }.write 0x0010 0x3F)) (fun t => t.p == 0x03 &&
      t.pc == 0x0602) = true := by
  decide

theorem test_asl_V153 :
    after (place [0x0A] { start with a := 0x40, p := 0x01 }) (fun t => t.a == 0x80 && t.p == 0x80 && t.pc ==
      0x0601) = true := by
  decide

theorem test_asl_V157 :
    after (place [0x1E, 0xFF, 0x02] ({ start with x := 0x01 }.write 0x0300 0xC0)) (fun t => t.p == 0x81 && t.pc ==
      0x0603 && t.read 0x0300 == 0x80) = true ∧
    crossed (place [0x1E, 0xFF, 0x02] ({ start with x := 0x01 }.write 0x0300 0xC0)) = some true := by
  decide

theorem test_lsr_V159 :
    after (place [0x4A] { start with a := 0x01, p := 0x80 }) (fun t => t.a == 0x00 && t.p == 0x03 && t.pc ==
      0x0601) = true := by
  decide

theorem test_lsr_V163 :
    after (place [0x56, 0x10] ({ start with x := 0xF0 }.write 0x0000 0x02)) (fun t => t.p == 0x00 && t.pc == 0x0602
      && t.read 0x0000 == 0x01) = true := by
  decide

theorem test_rol_V166 :
    after (place [0x2A] { start with a := 0x40, p := 0x01 }) (fun t => t.a == 0x81 && t.p == 0x80 && t.pc ==
      0x0601) = true := by
  decide

theorem test_rol_V173 :
    after (place [0x3E, 0x00, 0x03] ({ start with x := 0xFF, p := 0x01 }.write 0x03FF 0xAA)) (fun t => t.p == 0x01
      && t.pc == 0x0603 && t.read 0x03FF == 0x55) = true := by
  decide

theorem test_ror_V174 :
    after (place [0x6A] { start with a := 0x02, p := 0x01 }) (fun t => t.a == 0x81 && t.p == 0x80 && t.pc ==
      0x0601) = true := by
  decide

theorem test_ror_V178 :
    after (place [0x66, 0x10] ({ start with p := 0x01 }.write 0x0010 0x01)) (fun t => t.p == 0x81 && t.pc == 0x0602
      && t.read 0x0010 == 0x80) = true := by
  decide

theorem test_jmp_V185 :
    after (place [0x6C, 0xFF, 0x02] (((start.write 0x0200 0x12).write 0x02FF 0x34).write 0x0300 0x99)) (fun t =>
      t.p == 0x00 && t.pc == 0x1234) = true := by
  decide

theorem test_jmp_V186 :
    after (place [0x6C, 0xFF, 0x02] ((({ start with cfg := { Config.standard with jmpIndPageWrap := false } }.write
      0x0200 0x12).write 0x02FF 0x34).write 0x0300 0x99)) (fun t => t.p == 0x00 && t.pc == 0x9934) = true := by
  decide

theorem test_jsr_V188 :
    after (place [0x20, 0x09, 0x06] start) (fun t => t.sp == 0xFE && t.p == 0x00 && t.pc == 0x0609 && t.read 0x0100
      == 0x06 && t.read 0x01FF == 0x02) = true := by
  decide

theorem test_rts_V192 :
    after (place [0x60] (({ start with sp := 0xFE }.write 0x0100 0xFF).write 0x01FF 0xFF)) (fun t => t.sp == 0x00
      && t.p == 0x00 && t.pc == 0x0000) = true := by
  decide

theorem test_rts_V193 :
    after (place [0x60] (({ start with sp := 0x10, p := 0xC3 }.write 0x0111 0xFF).write 0x0112 0x12)) (fun t =>
      t.sp == 0x12 && t.p == 0xC3 && t.pc == 0x1300) = true := by
  decide

theorem test_bcc_V195 :
    after (place [0x90, 0x10] { start with p := 0x01 }) (fun t => t.p == 0x01 && t.pc == 0x0602) = true ∧
    crossed (place [0x90, 0x10] { start with p := 0x01 }) = some false := by
  decide

theorem test_bcs_V197 :
    after (place [0xB0, 0x10] { start with p := 0xCE }) (fun t => t.p == 0xCE && t.pc == 0x0602) = true ∧
    crossed (place [0xB0, 0x10] { start with p := 0xCE }) = some false := by
  decide

theorem test_beq_V212 :
    after (place [0xF0, 0xFC] { start with p := 0x02, pc := 0x0001 }) (fun t => t.p == 0x02 && t.pc == 0xFFFF) =
      true ∧
    crossed (place [0xF0, 0xFC] { start with p := 0x02, pc := 0x0001 }) = some true := by
  decide

theorem test_bne_V211 :
    after (place [0xD0, 0x10] { start with p := 0x00, pc := 0xFFF8 }) (fun t => t.p == 0x00 && t.pc == 0x000A) =
      true ∧
    crossed (place [0xD0, 0x10] { start with p := 0x00, pc := 0xFFF8 }) = some true := by
  decide

theorem test_bmi_V202 :
    after (place [0x30, 0x80] { start with p := 0x80 }) (fun t => t.p == 0x80 && t.pc == 0x0582) = true ∧
    crossed (place [0x30, 0x80] { start with p := 0x80 }) = some true := by
  decide

theorem test_bpl_V205 :
    after (place [0x10, 0x00] { start with p := 0x00 }) (fun t => t.p == 0x00 && t.pc == 0x0602) = true ∧
    crossed (place [0x10, 0x00] { start with p := 0x00 }) = some false := by
  decide

theorem test_bvc_V207 :
    after (place [0x50, 0x02] { start with p := 0x00, pc := 0x06FD }) (fun t => t.p == 0x00 && t.pc == 0x0701) =
      true ∧
    crossed (place [0x50, 0x02] { start with p := 0x00, pc := 0x06FD }) = some true := by
  decide

theorem test_bvs_V209 :
    after (place [0x70, 0x02] { start with p := 0x40, pc := 0x06FE }) (fun t => t.p == 0x40 && t.pc == 0x0702) =
      true ∧
    crossed (place [0x70, 0x02] { start with p := 0x40, pc := 0x06FE }) = some true := by
  decide

theorem test_clc_V213 :
    after (place [0x18] { start with p := 0xCF }) (fun t => t.p == 0xCE && t.pc == 0x0601) = true := by
  decide

theorem test_sec_V215 :
    after (place [0x38] { start with p := 0x00 }) (fun t => t.p == 0x01 && t.pc == 0x0601) = true := by
  decide

theorem test_cli_V216 :
    after (place [0x58] { start with p := 0x04 }) (fun t => t.p == 0x00 && t.pc == 0x0601) = true := by
  decide

theorem test_sei_V217 :
    after (place [0x78] { start with p := 0x00 }) (fun t => t.p == 0x04 && t.pc == 0x0601) = true := by
  decide

theorem test_cld_V218 :
    after (place [0xD8] { start with p := 0x08 }) (fun t => t.p == 0x00 && t.pc == 0x0601) = true := by
  decide

theorem test_sed_V219 :
    after (place [0xF8] { start with p := 0x00 }) (fun t => t.p == 0x08 && t.pc == 0x0601) = true := by
  decide

theorem test_clv_V221 :
    after (place [0xB8] { start with p := 0xCF }) (fun t => t.p == 0x8F && t.pc == 0x0601) = true := by
  decide

theorem test_nop_V222 :
    after (place [0xEA] { start with a := 0x11, x := 0x22, y := 0x33, sp := 0x44, p := 0xC3 }) (fun t => t.p ==
      0xC3 && t.pc == 0x0601) = true := by
  decide

theorem test_nop_V223 :
    after (place [0xEA] { start with pc := 0xFFFF }) (fun t => t.p == 0x00 && t.pc == 0x0000) = true := by
  decide

theorem test_brk_V227 :
    after (place [0x00] { start with sp := 0xFF, p := 0x03, pc := 0x060D, cfg := { Config.standard with
      brkPcPushOffset := .zero } }) (fun t => t.sp == 0xFC && t.p == 0x13 && t.pc == 0x060D && t.read 0x01FD ==
        0x33 && t.read 0x01FE == 0x0D && t.read 0x01FF == 0x06 && t.engine == .halted) = true := by
  decide

theorem test_brk_V228 :
    after (place [0x00] { start with sp := 0x01, p := 0xCF, pc := 0xFFFF }) (fun t => t.sp == 0xFE && t.p == 0xDF
      && t.pc == 0xFFFF && t.read 0x0100 == 0x01 && t.read 0x01FF == 0xFF && t.engine == .halted) = true := by
  decide

theorem test_rti_V230 :
    after (place [0x40] ((({ start with sp := 0xFC }.write 0x01FD 0xB3).write 0x01FE 0x0F).write 0x01FF 0x06)) (fun
      t => t.sp == 0xFF && t.p == 0x83 && t.pc == 0x060F) = true := by
  decide

theorem test_rti_V232 :
    after (place [0x40] ((({ start with sp := 0xFE, p := 0x00 }.write 0x0100 0x00).write 0x0101 0x80).write 0x01FF
      0xFF)) (fun t => t.sp == 0x01 && t.p == 0xCF && t.pc == 0x8000) = true := by
  decide

theorem test_illegal_S6_2 :
    after (place [0xFF] { start with a := 0x11, x := 0x22, y := 0x33, sp := 0x44, p := 0xC3, pc := 0x1234 }) (fun t
      => t.p == 0xC3 && t.pc == 0x1234 && t.engine == .faulted (.unimplementedOpcode 0xFF 0x1234)) = true := by
  decide

theorem test_illegal_S6_5 :
    after (place [0xEB] { start with a := 0x05 }) (fun t => t.p == 0x00 && t.pc == 0x0600 && t.engine == .faulted
      (.unimplementedOpcode 0xEB 0x0600)) = true := by
  decide


/-- Events of 95_test_vectors.md 1.1 and 1.2: a value, an address, a signed offset, none. -/
theorem test_events :
    observe (place [0xA9, 0x01] start) = some ⟨0x0600, 0xA9, .value 0x01⟩ ∧
    observe (place [0x8D, 0x00, 0x02] { start with pc := 0x0602 }) = some ⟨0x0602, 0x8D, .address 0x0200⟩ ∧
    observe (place [0xD0, 0xF8] { start with pc := 0x0608 }) = some ⟨0x0608, 0xD0, .offset (-8)⟩ ∧
    observe (place [0x00] { start with pc := 0x060F }) = some ⟨0x060F, 0x00, .none⟩ ∧
    observe (place [0x02] start) = none := by
  decide

/-- The display's colours (60_exceptions.md R257): the low nibble of the byte selects the colour. -/
theorem test_display :
    displayColour (start.write 0x0200 0x01) 0 = .white ∧ displayColour (start.write 0x05FF 0x2E) 1023 = .lightBlue ∧
    displayByte (start.write 0x0600 0x01) 1023 = 0x00 := by
  decide

/-- A word stored where the next step fetches it runs in that step. -/
theorem test_fetch_word :
    after (State.reset.withFetchWord 16 0x42A9) (fun t => t.a == 0x42 && t.pc == 0x0602) = true ∧
    after (State.reset.withFetchWord 8 0x0040) (fun t => t.sp == 0x03 && t.pc == 0x0000) = true := by
  decide

/-! ### Witnesses: the hypotheses of each statement are met, clause by clause -/

/-- A Running state with the given bytes at 0x0600. -/
def bytesAt (bytes : List Byte) : State := place bytes start

/-- Where an outcome leads. -/
def nextOf (s : State) : Outcome → State
  | .next t => t
  | .fault _ | .refused _ => s

/-- For `EveryInstructionHasAnEncodingOfItsMnemonic`. -/
theorem witness_encodings :
    (0xA9, .imm) ∈ encodingsOf .lda ∧ (0x40, .imp) ∈ encodingsOf .rti ∧
    (Instr.ldaImm 0x00).opcode = (Instr.ldaImm 0xFF).opcode := by
  decide

/-- For `DecodedBytesAreTheEncoding`: a form of each length. -/
theorem witness_decoded_bytes :
    decode [0xEA] = .ok .nop [] ∧ decode [0xA9, 0xFF, 0x00] = .ok (.ldaImm 0xFF) [0x00] ∧
    decode [0xAD, 0xFF, 0xFF] = .ok (.ldaAbs 0xFFFF) [] := by
  decide

/-- For `ExactlyTheListedBytesAreIllegal`: the first and the last illegal byte, fetched in Running. -/
theorem witness_illegal_fetch :
    (bytesAt [0x02]).engine = .running ∧ (bytesAt [0x02]).read (bytesAt [0x02]).pc ∈ illegalBytes ∧
    (bytesAt [0xFF]).engine = .running ∧ (bytesAt [0xFF]).read (bytesAt [0xFF]).pc ∈ illegalBytes := by
  decide

/-- For `StepRunsTheDecodedInstruction`, first clause, under `per_step`. -/
theorem witness_step_runs_per_step : ∃ (s : State) (i : Instr) (rest : List Byte),
    s.engine = .running ∧ s.cfg.rndRefresh = .perStep ∧
    decode [s.read s.pc, s.refreshRandom.read (s.pc + 1), s.refreshRandom.read (s.pc + 2)] = .ok i rest :=
  ⟨{ bytesAt [0x4C, 0xFF, 0xFF] with cfg := { Config.standard with rndRefresh := .perStep } }, .jmpAbs 0xFFFF, [],
    by decide, by decide, by decide⟩

/-- For `StepRunsTheDecodedInstruction`, second clause. -/
theorem witness_step_runs_per_load : ∃ (s : State) (i : Instr) (rest : List Byte),
    s.engine = .running ∧ s.cfg.rndRefresh = .perLoad ∧
    decode [s.read s.pc, s.read (s.pc + 1), s.read (s.pc + 2)] = .ok i rest :=
  ⟨bytesAt [0x4C, 0x00, 0x06], .jmpAbs 0x0600, [], by decide, by decide, by decide⟩

set_option maxRecDepth 4000 in
/-- The form of the opcode byte of NOP. -/
theorem test_form_nop : opcodeForm 0xEA = some (.f1 .nop) := rfl

/-- Bytes placed at PC, under `RND_REFRESH = per_step`. -/
def bytesPerStep (bytes : List Byte) : State :=
  { bytesAt bytes with cfg := { Config.standard with rndRefresh := .perStep } }

/-- For `RefreshHappensAfterDecodeAndBeforeOperands`: both settings, each with a legal and an illegal opcode in
Running. -/
theorem witness_refresh :
    start.cfg.rndRefresh = .perLoad ∧ (bytesAt [0xEA]).engine = .running ∧
    opcodeForm ((bytesAt [0xEA]).read (bytesAt [0xEA]).pc) = some (.f1 .nop) ∧
    (bytesPerStep [0xEA]).cfg.rndRefresh = .perStep ∧ (bytesPerStep [0xEA]).engine = .running ∧
    opcodeForm ((bytesPerStep [0xEA]).read (bytesPerStep [0xEA]).pc) = some (.f1 .nop) ∧
    (bytesPerStep [0x02]).engine = .running ∧
    opcodeForm ((bytesPerStep [0x02]).read (bytesPerStep [0x02]).pc) = none :=
  ⟨rfl, rfl, test_form_nop, rfl, rfl, test_form_nop, rfl, by decide⟩

/-- For `UnknownOpcodeFaultsPrecisely`, and the illegal clauses of `RefreshHappensAfterDecodeAndBeforeOperands` and
`EngineTransitionsAreTheListedOnes`. -/
theorem witness_unknown_opcode :
    (bytesAt [0x80]).engine = .running ∧ opcodeForm ((bytesAt [0x80]).read (bytesAt [0x80]).pc) = none := by
  decide

/-- For `NoStepOutsideRunning` and the clauses outside Running of `EngineTransitionsAreTheListedOnes` and
`RunsCompose`. -/
theorem witness_outside_running :
    ({ start with engine := .halted } : State).engine = .halted ∧
    ({ start with engine := .faulted (.unimplementedOpcode 0x02 0x0600) } : State).engine
      = .faulted (.unimplementedOpcode 0x02 0x0600) ∧
    ({ start with engine := .halted } : State).engine ≠ .running := by
  decide

/-- For `EngineTransitionsAreTheListedOnes`: the opcode 0x00, and a legal opcode that is not 0x00. -/
theorem witness_engine_transitions :
    (bytesAt [0x00]).engine = .running ∧ (bytesAt [0x00]).read (bytesAt [0x00]).pc = 0x00 ∧
    (bytesAt [0xFE]).read (bytesAt [0xFE]).pc ≠ 0x00 ∧
    (opcodeForm ((bytesAt [0xFE]).read (bytesAt [0xFE]).pc)).isSome = true := by
  decide

/-- A canonical memory that no opaque value stands in. -/
def canonicalMemory : Memory := [(0x00FE, 0x41), (0x00FF, 0x00), (0x0600, 0xEA), (0xFFFF, 0x01)]

/-- For `EveryMoveKeepsMemoryCanonical` and `EveryStepKeepsBreakAndBitFive` (both clauses of the invariant: a Running
state), and the step clauses of `StepsKeepTheParametersAndCountDraws` and `RunsCompose`. -/
theorem witness_invariant_step : ∃ s t : State, s.mem.wf ∧ s.statusBitsInv ∧ step s = .next t :=
  ⟨{ start with mem := canonicalMemory }, { start with mem := canonicalMemory, pc := 0x0601 }, by decide,
    by unfold State.statusBitsInv; decide, by rfl⟩

/-- For `EveryStepKeepsBreakAndBitFive`: the step that sets B. -/
theorem witness_invariant_break : ∃ s t : State, s.statusBitsInv ∧ step s = .next t ∧ t.flag .B = true :=
  ⟨bytesAt [0x00], nextOf start (step (bytesAt [0x00])), by unfold State.statusBitsInv; decide, by rfl, by decide⟩

/-- For `CanonicalMemoriesThatReadAlikeAreEqual`: a memory, and the same after a cell is written and written back. -/
theorem witness_canonical_memories :
    canonicalMemory.wf ∧ ((canonicalMemory.write 0x0000 0x01).write 0x0000 0x00).wf ∧
    ∀ a : Addr, canonicalMemory.read a = ((canonicalMemory.write 0x0000 0x01).write 0x0000 0x00).read a := by
  have e : (canonicalMemory.write 0x0000 0x01).write 0x0000 0x00 = canonicalMemory := by decide
  rw [e]
  exact ⟨by decide, by decide, fun _ => rfl⟩

/-- For `LoadGivesTheResetValues`: an image that wraps. The cell 0x0000 holds its last byte, 0xFFFF its first, and
0x0001 lies outside it. -/
theorem witness_load_image :
    (∀ k, k < [0x11, 0x22].length → (0xFFFF : Addr) + BitVec.ofNat 16 k ≠ 0x0001) ∧
    (0xFFFF : Addr) + BitVec.ofNat 16 1 = 0x0000 ∧
    (∀ j, 1 < j → j < [0x11, 0x22].length → (0xFFFF : Addr) + BitVec.ofNat 16 j ≠ 0x0000) ∧
    (0xFFFF : Addr) + BitVec.ofNat 16 0 = 0xFFFF ∧
    (∀ j, 0 < j → j < [0x11, 0x22].length → (0xFFFF : Addr) + BitVec.ofNat 16 j ≠ 0xFFFF) := by
  refine ⟨?_, by decide, ?_, by decide, ?_⟩
  · intro k hk
    have h : k = 0 ∨ k = 1 := by simp only [List.length] at hk; omega
    rcases h with rfl | rfl <;> decide
  · intro j h1 h2
    simp only [List.length] at h2
    omega
  · intro j h1 h2
    have h : j = 1 := by simp only [List.length] at h2; omega
    subst h
    decide

/-- For `ResetIsTheLoadOfAnEmptyImage`. -/
theorem witness_fresh_machine : ∃ s : State, s.cfg = Config.standard ∧ s.draws = 0 :=
  ⟨{ start with draws := 0 }, rfl, rfl⟩

/-- For `ObserverEventOfARetiredStep` and `CyclesAddTheExtraOnesOfTheRule`: an instruction of each clause. -/
theorem witness_access_kinds :
    (Instr.ldaImm 0).mnemonic.kind = .value ∧ (Instr.staIndy 0).mnemonic.kind = .address ∧
    (Instr.jmpInd 0).mnemonic.kind = .address ∧ (Instr.aslZp 0).mnemonic.kind = .rmw ∧
    (Instr.aslZp 0).mode ≠ .acc ∧ (Instr.beq 0x80).mnemonic.kind = .branch ∧ Instr.rti.mode = .imp ∧
    Instr.rorAcc.mode = .acc ∧ (Instr.ldaAbsx 0).mode = .absx ∧ (Instr.ldaAbsy 0).mode = .absy ∧
    (Instr.ldaIndy 0).mode = .indy ∧ (Instr.ldaAbsx 0).mnemonic.kind = .value ∧ (Instr.ldaImm 0).mode ≠ .absx ∧
    (Instr.ldaImm 0).mode ≠ .absy ∧ (Instr.ldaImm 0).mode ≠ .indy ∧ (Instr.staAbsx 0).mnemonic.kind ≠ .value ∧
    (Instr.staAbsx 0).mnemonic.kind ≠ .branch := by
  decide

/-- For `DirectModesComputeTheirAddress`, last clause. -/
theorem witness_zpy : (Instr.ldxZpy 0xFF).mode = .zpy ∧ (Instr.stxZpy 0x00).mode = .zpy := by decide

/-- For the three frames over all instructions: an instruction that completes, with a flag, a register and a cell that
its own row does not name. -/
theorem witness_frames : ∃ (i : Instr) (s t : State), exec i s = .next t ∧ Flag.C ∉ flagsWritten i.mnemonic ∧
    Reg.A ∉ registersWritten i ∧ (0x0012 : Addr) ∉ storedCells i s ∧ i.mnemonic ≠ .brk ∧
    i.mnemonic ∉ [.jmp, .jsr, .rts, .rti, .brk, .bcc, .bcs, .beq, .bne, .bmi, .bpl, .bvc, .bvs] :=
  ⟨.incZp 0x11, start, nextOf start (exec (.incZp 0x11) start), rfl, by decide, by decide, by decide, by decide,
    by decide⟩

/-- For the statements about a mnemonic in all its modes: an instruction of each. -/
theorem witness_mnemonics :
    (Instr.ldaIndx 0).mnemonic = .lda ∧ (Instr.ldxImm 0).mnemonic = .ldx ∧ (Instr.ldyZpx 0).mnemonic = .ldy ∧
    (Instr.staIndy 0).mnemonic = .sta ∧ (Instr.stxZpy 0).mnemonic = .stx ∧ (Instr.styAbs 0).mnemonic = .sty ∧
    (Instr.adcAbsx 0).mnemonic = .adc ∧ (Instr.sbcAbsy 0).mnemonic = .sbc ∧ (Instr.cmpIndy 0).mnemonic = .cmp ∧
    (Instr.cpxAbs 0).mnemonic = .cpx ∧ (Instr.cpyImm 0).mnemonic = .cpy ∧ (Instr.incAbsx 0).mnemonic = .inc ∧
    (Instr.decZp 0).mnemonic = .dec ∧ (Instr.andImm 0).mnemonic = .and ∧ (Instr.oraIndx 0).mnemonic = .ora ∧
    (Instr.eorZpx 0).mnemonic = .eor ∧ (Instr.bitAbs 0).mnemonic = .bit ∧ Instr.aslAcc.mnemonic = .asl ∧
    (Instr.lsrAbsx 0).mnemonic = .lsr ∧ Instr.rolAcc.mnemonic = .rol ∧ (Instr.rorZp 0).mnemonic = .ror ∧
    Instr.aslAcc.mode = .acc ∧ (Instr.lsrAbsx 0).mode ≠ .acc ∧ Instr.nop.mnemonic = .nop := by
  decide

/-- For the result clauses of LSR and ROR (N): an execution that has a next state. -/
theorem witness_shift_next : ∃ t u : State, exec .lsrAcc start = .next t ∧ exec (.rorZp 0xFF) start = .next u :=
  ⟨_, _, rfl, rfl⟩

/-- For `CarryAndOverflowMeanUnsignedAndSigned`: both clauses, at the boundary 0x7F + 0x00 + 1 and 0x80 - 0x00 - 1. -/
theorem witness_carry_overflow : ∃ s t s' t' : State,
    operandValue s (Instr.adcImm 0x00).operand = some 0x00 ∧ exec (.adcImm 0x00) s = .next t ∧ s.a = 0x7F ∧
    s.flag .C = true ∧
    operandValue s' (Instr.sbcImm 0x00).operand = some 0x00 ∧ exec (.sbcImm 0x00) s' = .next t' ∧ s'.a = 0x80 ∧
    s'.flag .C = false :=
  ⟨{ start with a := 0x7F, p := 0x01 }, _, { start with a := 0x80 }, _, rfl, rfl, rfl, by decide, rfl, rfl, rfl,
    by decide⟩

/-- For `JmpSetsPcAndNothingElse`: both settings of the parameter, and pointers at both sides of a page's end. -/
theorem witness_jmp_pointer :
    start.cfg.jmpIndPageWrap = true ∧
    ({ start with cfg := { Config.standard with jmpIndPageWrap := false } } : State).cfg.jmpIndPageWrap = false ∧
    lo8 0x02FE ≠ 0xFF ∧ lo8 0x0300 ≠ 0xFF := by
  refine ⟨rfl, rfl, ?_, ?_⟩ <;> decide

/-- A state that a subroutine left: A, X, a flag, a cell below the stack pointer and one outside
the stack differ. -/
def afterBody (t : State) : State :=
  { (t.write 0x0200 0x55).write (stackCell t.sp) 0x66 with a := 0x77, x := 0x88, p := 0x01 }

/-- For `RtsReturnsPastThePulledAddress`, the pair clause: a later state with the same S and the same pushed bytes
  that
differs elsewhere, in memory too. -/
theorem witness_return_pair : ∃ t u : State, exec (.jsr 0x1234) start = .next t ∧ u.sp = t.sp ∧
    u.read (word16 0x01 start.sp) = t.read (word16 0x01 start.sp) ∧
    u.read (word16 0x01 (start.sp - 1)) = t.read (word16 0x01 (start.sp - 1)) ∧ u.read 0x0200 ≠ t.read 0x0200 :=
  ⟨nextOf start (exec (.jsr 0x1234) start), afterBody (nextOf start (exec (.jsr 0x1234) start)), rfl, rfl, by decide,
    by decide, by decide⟩

/-- For `RtiPullsTheRecordOfBrk`: the same with the three bytes that BRK pushed. -/
theorem witness_trap_pair : ∃ t u : State, exec .brk start = .next t ∧ u.sp = t.sp ∧
    (∀ c ∈ [word16 0x01 start.sp, word16 0x01 (start.sp - 1), word16 0x01 (start.sp - 2)], u.read c = t.read c) ∧
    u.read 0x0200 ≠ t.read 0x0200 :=
  ⟨start.breakEntry, start.breakEntry.write 0x0200 0x55, rfl, rfl,
    fun c hc => (State.read_write _ _ c _).trans (if_neg (by rintro rfl; revert hc; decide)),
    by rw [State.read_write_same]; decide⟩

/-- For `NopOnlyAdvancesPc`, the step. -/
theorem witness_nop_step : (bytesAt [0xEA]).engine = .running ∧ (bytesAt [0xEA]).read (bytesAt [0xEA]).pc = 0xEA := by
  decide

/-- For `InterruptDisableAndDecimalAreInert`: two states that differ in I and D, and an instruction of each clause. -/
theorem witness_inert : ∃ s s' t t' u u' v v' : State, AgreeButInert s s' ∧ s.p ≠ s'.p ∧
    exec (.adcImm 0x09) s = .next t ∧ exec (.adcImm 0x09) s' = .next t' ∧
    exec .php s = .next u ∧ exec .php s' = .next u' ∧ exec .brk s = .next v ∧ exec .brk s' = .next v' :=
  ⟨start, { start with p := 0x0C }, _, _, _, _, _, _,
    ⟨rfl, fun f h1 h2 => by cases f <;> first | rfl | exact absurd rfl h1 | exact absurd rfl h2⟩,
    by decide, rfl, rfl, rfl, rfl, rfl, rfl⟩

/-- For `StoresAreSeenByTheNextFetch`, the fetch clauses: a store leaves the machine Running, under both settings. -/
theorem witness_store_running :
    ∀ s ∈ [bytesAt [], bytesPerStep []], (nextOf s (exec (.incAbs 0x0603) s)).engine = .running := by
  decide

/-- For `StoresAreSeenByTheNextFetch`: INC makes the opcode byte behind it one of three bytes. -/
theorem witness_store_opcode :
    decode ([0, 1, 2].map fun k => memoryAfter (.incAbs 0x0603) (bytesAt [0xEE, 0x03, 0x06, 0x8D, 0x34, 0x12])
      (0x0603 + k)) = .ok (.stxAbs 0x1234) [] := by
  decide

/-- For `StoresAreSeenByTheNextFetch`: STA writes the operand byte of the instruction behind it. -/
theorem witness_store_operand :
    decode ([0, 1, 2].map fun k => memoryAfter (.staAbs 0x0604) { bytesAt [0x8D, 0x04, 0x06, 0xA9] with a := 0x41 }
      (0x0603 + k)) = .ok (.ldaImm 0x41) [0x00] := by
  decide

/-- For `StoresAreSeenByTheNextFetch`: PHA pushes an opcode behind itself, under `per_step`. -/
theorem witness_store_push :
    decode ([0, 1, 2].map fun k => memoryAfter .pha { bytesPerStep [] with sp := 0x80, pc := 0x017F, a := 0xEA }
      (0x0180 + k)) = .ok .nop [0x00, 0x00] := by
  decide

/-- For `StoresAreSeenByTheNextFetch`: INC makes the opcode byte behind it illegal; and a store into its own
  opcode. -/
theorem witness_store_illegal :
    memoryAfter (.incAbs 0x0603) (bytesAt [0xEE, 0x03, 0x06, 0x01]) 0x0603 ∈ illegalBytes ∧
    decode ([0, 1, 2].map fun k => (bytesAt [0x8D, 0x00, 0x06]).read (0x0600 + k)) = .ok (.staAbs 0x0600) [] ∧
    (0x0600 : Addr) ∈ storedCells (.staAbs 0x0600) (bytesAt [0x8D, 0x00, 0x06]) := by
  decide

/-- An observer that writes one key at every event. -/
def pressing (key : Byte) : Observer := fun _ _ _ => [.writeKey key]

/-- The observer writes nothing but keys. -/
theorem pressing_keysOnly (key : Byte) : (pressing key).keysOnly :=
  fun _ _ _ _ h => ⟨key, List.mem_singleton.1 h⟩

/-- 20_memory.md R58, R61: a key written at the event of a step is in 0x00FF when the run goes on; a faulting fetch
  has no
event and no write. -/
theorem test_observer_writes_key :
    (runState 1 (pressing 0x41) (bytesAt [0xEA])).read 0x00FF = 0x41 ∧
    (runState 1 (pressing 0x41) (bytesAt [0xEA])).pc = 0x0601 ∧
    (runState 1 (pressing 0x41) { bytesAt [0x02] with mem := copyImage canonicalMemory 0x0600 [0x02] }).read 0x00FF
      = 0x00 := by
  decide

/-- 60_exceptions.md R255: a load at the event of BRK leaves the Halted machine Running at the origin. -/
theorem test_observer_loads :
    (runState 1 (fun _ _ _ => [.load 0x0700 [0xEA]]) (bytesAt [0x00])).engine = .running ∧
    (runState 1 (fun _ _ _ => [.load 0x0700 [0xEA]]) (bytesAt [0x00])).pc = 0x0700 := by
  decide

/-- For `TheHostActsAtEachEventOfARun`: a step with an event, a load there, and a safe run of one step. -/
theorem witness_event : ∃ (s t : State) (event : Event) (obs : Observer), SafeRun (0 + 1) s ∧ s.engine = .running ∧
    opcodeForm (s.read s.pc) = some (.f1 .nop) ∧ step s = .next t ∧ observe s = some event ∧
    obs 0 event t = [.load 0x0700 [0xEA]] := by
  refine ⟨bytesAt [0xEA], nextOf start (step (bytesAt [0xEA])), ⟨0x0600, 0xEA, .none⟩, fun _ _ _ => [.load 0x0700
    [0xEA]],
    ?_, rfl, test_form_nop, rfl, rfl, rfl⟩
  intro obs h reason
  have hs : step (bytesAt [0xEA]) = .next (nextOf start (step (bytesAt [0xEA]))) := rfl
  rw [runState_succ hs, runState_zero, show observe (bytesAt [0xEA]) = some ⟨0x0600, 0xEA, .none⟩ from rfl,
    Observer.respond_some, (hostActions_keys (h 0 _ _) _).1]
  intro e
  cases e

/-- For `RunsWithAnyObserverKeepTheInvariants`: a state that meets both invariants, and a run of it that changes
  memory
at an event. -/
theorem witness_run_invariants : ∃ s t : State, s.memoryInv ∧ s.statusBitsInv ∧ t = runState 1 (pressing 0x41) s ∧
    t.mem ≠ s.mem :=
  ⟨{ start with mem := copyImage canonicalMemory 0x0600 [0xEA] },
    runState 1 (pressing 0x41) { start with mem := copyImage canonicalMemory 0x0600 [0xEA] },
    by unfold State.memoryInv; decide, by unfold State.statusBitsInv; decide, rfl, by decide⟩

/-- For `KeyWritesDoNotReachAProgramThatDoesNotReadThem`: states that differ in the key cell, a step that does not
  read
it, and two observers. LDA of the key cell reads it. -/
theorem witness_key_unread : ∃ s s' t : State, AgreeButKey s s' ∧ s'.read 0x00FF ≠ s.read 0x00FF ∧
    0x00FF ∉ stepReads s ∧ step s = .next t ∧ (∀ k, k < 1 → 0x00FF ∉ stepReads (runState k (pressing 0x41) s)) ∧
    (pressing 0x41).keysOnly ∧ (pressing 0x42).keysOnly ∧ 0x00FF ∈ stepReads (bytesAt [0xA5, 0xFF]) := by
  have hs : step (hostKeyWrite 0x01 (bytesAt [0xA5, 0x12]))
      = .next (nextOf start (step (hostKeyWrite 0x01 (bytesAt [0xA5, 0x12])))) := rfl
  have hr : 0x00FF ∉ stepReads (hostKeyWrite 0x01 (bytesAt [0xA5, 0x12])) := by decide
  refine ⟨hostKeyWrite 0x01 (bytesAt [0xA5, 0x12]), hostKeyWrite 0x02 (hostKeyWrite 0x01 (bytesAt [0xA5, 0x12])), _,
    ⟨rfl, fun c hc => Memory.read_write_ne _ _ hc⟩, by decide, hr, hs, ?_, pressing_keysOnly _, pressing_keysOnly _,
    by decide⟩
  intro k hk
  have : k = 0 := by omega
  subst this
  exact hr

/-- For `PushesWrapAfterTwoHundredFiftySix`: the first and the last push. -/
theorem witness_push_numbers : (0 : Nat) < 256 ∧ (255 : Nat) < 256 := by decide


end Sys2Proof.Tests
end

/-! ### The opcode map (30_encoding.md R87, R88): the proofs of the encoding family -/

namespace Sys2Proof

open Sys2Proof.Machine Sys2Proof.Claims

/-! #### The descriptors of the instructions and the rows of the table -/

/-- Every instruction is described by a row of the opcode table, whatever its operand bytes (30_encoding.md R86). -/
theorem Instr.descriptor_mem_descriptors (i : Instr) : i.descriptor ∈ descriptors := by
  cases i <;> exact List.mem_of_elem_eq_true rfl

/-- The rows of the opcode table describe the instructions, all of them and nothing else. -/
theorem mem_descriptors_iff {d : Descriptor} : d ∈ descriptors ↔ ∃ i : Instr, i.descriptor = d := by
  constructor
  · intro h
    obtain ⟨row, -, rfl⟩ := List.mem_map.1 h
    exact ⟨row.2.build 0 0, rfl⟩
  · rintro ⟨i, rfl⟩
    exact i.descriptor_mem_descriptors

set_option maxRecDepth 4000 in
/-- No two rows of the opcode table have one opcode byte (30_encoding.md R86). -/
theorem descriptors_opcode_nodup : (descriptors.map Descriptor.opcode).Nodup := by
  decide

/-- The opcode byte of an instruction determines its descriptor. -/
theorem Instr.descriptor_eq_of_opcode_eq {i j : Instr} (h : i.opcode = j.opcode) : i.descriptor = j.descriptor :=
  List.inj_on_of_nodup_map descriptors_opcode_nodup i.descriptor_mem_descriptors j.descriptor_mem_descriptors h

/-- The operand of an instruction is of the mode of its descriptor (30_encoding.md R82 to R84). -/
@[simp] theorem Instr.operand_mode (i : Instr) : i.operand.mode = i.mode := by
  cases i <;> rfl

/-! #### The rows of R87 -/

/-- The pairs R87 lists for a mnemonic are those of the mnemonic's rows in the opcode table, in the table's order. -/
theorem encodingsOf_eq (n : Mnemonic) :
    encodingsOf n = (descriptors.filter fun d => d.mnemonic = n).map fun d => (d.opcode, d.mode) := by
  cases n <;> rfl

/-- The pairs R87 lists for a mnemonic are those of its instructions. -/
theorem mem_encodingsOf_iff {n : Mnemonic} {op : Byte} {m : Mode} :
    (op, m) ∈ encodingsOf n ↔ ∃ i : Instr, i.mnemonic = n ∧ i.opcode = op ∧ i.mode = m := by
  simp only [encodingsOf_eq, List.mem_map, List.mem_filter, mem_descriptors_iff, decide_eq_true_eq, Prod.mk.injEq]
  constructor
  · rintro ⟨_, ⟨⟨i, rfl⟩, hn⟩, hop, hm⟩
    exact ⟨i, hn, hop, hm⟩
  · rintro ⟨i, hn, hop, hm⟩
    exact ⟨i.descriptor, ⟨⟨i, rfl⟩, hn⟩, hop, hm⟩

/-- The opcode table has 151 rows, and R87 lists each of them for its mnemonic. -/
theorem descriptors_listed :
    (descriptors.map fun d => (encodingsOf d.mnemonic).contains (d.opcode, d.mode)) = List.replicate 151 true := by
  refine List.eq_replicate_iff.2 ⟨rfl, fun b hb => ?_⟩
  obtain ⟨d, hd, rfl⟩ := List.mem_map.1 hb
  obtain ⟨i, rfl⟩ := mem_descriptors_iff.1 hd
  exact List.contains_iff_mem.2 (mem_encodingsOf_iff.2 ⟨i, rfl, rfl, rfl⟩)

/-- Settles O2: the listed pairs are those of the instructions (`mem_encodingsOf_iff`), and an opcode byte determines
the descriptor. -/
theorem everyInstructionHasAnEncodingOfItsMnemonic : Obligations.EveryInstructionHasAnEncodingOfItsMnemonic := by
  refine ⟨fun i => mem_encodingsOf_iff.2 ⟨i, rfl, rfl, rfl⟩, fun _ _ _ => mem_encodingsOf_iff.1, fun i j h => ?_,
    descriptors_listed, Instr.operand_mode⟩
  have hd : i.descriptor = j.descriptor := Instr.descriptor_eq_of_opcode_eq h
  exact ⟨congrArg Descriptor.mnemonic hd, congrArg Descriptor.mode hd⟩

/-! #### The illegal bytes of R88 -/

/-- All byte values, in rising order. -/
def allBytes : List Byte := (List.finRange 256).map BitVec.ofFin

theorem mem_allBytes (op : Byte) : op ∈ allBytes := List.mem_map.2 ⟨op.toFin, List.mem_finRange _, rfl⟩

theorem allBytes_nodup : allBytes.Nodup :=
  (List.nodup_finRange 256).map fun _ _ h => BitVec.ofFin.inj h

set_option maxRecDepth 4000 in
/-- The list of R88 is that of the byte values without a row in the opcode table, in rising order. -/
theorem illegalBytes_eq : illegalBytes = allBytes.filter fun op => (opcodeForm op).isNone := by
  rfl

/-- R88 lists a byte exactly when it has no row in the opcode table. -/
theorem mem_illegalBytes_iff {op : Byte} : op ∈ illegalBytes ↔ opcodeForm op = none := by
  simp [illegalBytes_eq, mem_allBytes]

theorem illegalBytes_nodup : illegalBytes.Nodup := by
  rw [illegalBytes_eq]
  exact allBytes_nodup.filter _

/-- The decoder rejects bytes as an unimplemented opcode exactly when the first of them has no row. -/
theorem decode_eq_unimplementedOpcode_iff (op : Byte) (rest : List Byte) :
    decode (op :: rest) = .error (.unimplementedOpcode op) ↔ opcodeForm op = none := by
  refine ⟨fun h => ?_, decode_illegal rest⟩
  cases hf : opcodeForm op with
  | none => rfl
  | some form =>
    rcases form with i | f | f <;> rcases rest with _ | ⟨b1, _ | ⟨b2, rest⟩⟩ <;> simp [decode, hf] at h

/-- Settles O5: the listed bytes are those without a row in the opcode table, and a step that fetches such a byte
raises the fault. -/
theorem exactlyTheListedBytesAreIllegal : Obligations.ExactlyTheListedBytesAreIllegal :=
  ⟨rfl, illegalBytes_nodup,
    fun op rest => (decode_eq_unimplementedOpcode_iff op rest).trans mem_illegalBytes_iff.symm,
    fun _ hr h => step_illegal hr (mem_illegalBytes_iff.1 h)⟩

end Sys2Proof

/-! ### The engine's state machine (40_execution_engine.md R100): the proofs of the execution engine family -/

namespace Sys2Proof

open Sys2Proof.Machine Sys2Proof.Claims

/-! #### The opcode byte of a decoded instruction -/

set_option maxRecDepth 4000 in
/-- Every row of the opcode table builds instructions of its own opcode byte, whatever the operand bytes. -/
theorem opcodeTable_build_opcode (b1 b2 : Byte) :
    opcodeTable.map (fun row => (row.2.build b1 b2).opcode) = opcodeTable.map Prod.fst := rfl

/-- The instruction a legal opcode byte decodes to has that opcode byte. -/
theorem build_opcode {op : Byte} {form : Form} (h : opcodeForm op = some form) (b1 b2 : Byte) :
    (form.build b1 b2).opcode = op :=
  List.map_inj_left.1 (opcodeTable_build_opcode b1 b2) _ (opcodeForm_mem h)

/-- BRK is the mnemonic of the opcode byte 0x00 and of no other. -/
theorem Instr.mnemonic_eq_brk_iff {i : Instr} : i.mnemonic = .brk ↔ i.opcode = 0x00 := by
  constructor
  · intro h
    obtain ⟨rfl, -⟩ := exec_means_of h State.reset
    rfl
  · intro h
    exact congrArg Descriptor.mnemonic (Instr.descriptor_eq_of_opcode_eq (j := .brk) h)

/-- The opcode byte of BRK is legal. -/
theorem opcodeForm_brk_ne_none : opcodeForm 0x00 ≠ none := by
  rw [Ne, ← mem_illegalBytes_iff]
  decide

/-! #### The engine after an instruction -/

namespace Machine

/-- The instruction has a next state, and the engine there is the engine before. -/
def KeepsEngine (i : Instr) (s : State) : Prop :=
  ∃ t, exec i s = .next t ∧ t.engine = s.engine

section Shapes

variable {i : Instr} {s : State}

theorem HandlesValue.keepsEngine {h : Byte → State → State} (hi : HandlesValue h i s)
    (hh : ∀ m, (h m s).engine = s.engine) : KeepsEngine i s := by
  obtain ⟨m, -, e⟩ := hi
  exact ⟨_, e, hh m⟩

theorem StoresByte.keepsEngine {v : Byte} (hi : StoresByte v i s) : KeepsEngine i s := by
  obtain ⟨ea, -, e⟩ := hi
  exact ⟨_, e, rfl⟩

theorem ModifiesOperand.keepsEngine {h : Byte → State → Modified} (hi : ModifiesOperand h i s)
    (hh : ∀ m, (h m s).state.engine = s.engine) : KeepsEngine i s := by
  obtain ⟨-, -, e⟩ | ⟨-, ea, -, e⟩ := hi
  · exact ⟨_, e, hh s.a⟩
  · exact ⟨_, e, hh (s.read ea)⟩

theorem BranchesOn.keepsEngine {cond : State → Bool} (hi : BranchesOn cond i s) : KeepsEngine i s := by
  obtain ⟨d, -, e⟩ := hi
  refine ⟨_, e, ?_⟩
  split
  · exact State.jump_engine s _
  · exact State.advance_engine s 2

end Shapes

/-- Every instruction but BRK has a next state and leaves the engine as it is. -/
theorem exec_keepsEngine {i : Instr} (h : i.mnemonic ≠ .brk) (s : State) : KeepsEngine i s := by
  have hi : Means i.mnemonic i s := exec_means i s
  cases hn : i.mnemonic <;> rw [hn] at hi
  case lda | ldx | ldy | adc | sbc | cmp | cpx | cpy | and | ora | eor | bit =>
    exact HandlesValue.keepsEngine hi fun _ => rfl
  case sta | stx | sty => exact StoresByte.keepsEngine hi
  case inc | dec => exact ModifiesOperand.keepsEngine hi.2 fun _ => rfl
  case asl | lsr | rol | ror => exact ModifiesOperand.keepsEngine hi fun _ => rfl
  case bcc | bcs | beq | bne | bmi | bpl | bvc | bvs => exact BranchesOn.keepsEngine hi
  case jmp | jsr =>
    obtain ⟨_, -, e⟩ := hi
    exact ⟨_, e, rfl⟩
  case tax | tay | txa | tya | tsx | txs | pha | php | pla | plp | inx | iny | dex | dey | clc | sec | cli | sei | cld |
      sed | clv | nop | rts | rti =>
    exact ⟨_, hi.2, rfl⟩
  case brk => exact absurd hn h

/-- The engine after an instruction: Halted after BRK, the engine before after every other. -/
theorem exec_engine (i : Instr) (s : State) :
    ∃ t, exec i s = .next t ∧ t.engine = if i.opcode = 0x00 then .halted else s.engine := by
  split
  · next h => exact ⟨_, (exec_means_of (Instr.mnemonic_eq_brk_iff.2 h) s).2, s.breakEntry_engine⟩
  · next h => exact exec_keepsEngine (mt Instr.mnemonic_eq_brk_iff.1 h) s

/-- The engine after a step that fetches a legal opcode. -/
theorem step_legal_engine {s : State} {form : Form} (hr : s.engine = .running)
    (hf : opcodeForm (s.read s.pc) = some form) :
    ∃ t, step s = .next t ∧ t.engine = if s.read s.pc = 0x00 then .halted else .running := by
  simpa only [step_legal hr hf, build_opcode hf, State.refreshRandom_engine, hr] using
    exec_engine (form.build (s.refreshRandom.read (s.pc + 1)) (s.refreshRandom.read (s.pc + 2))) s.refreshRandom

end Machine

/-- Settles O10: a fetch of an illegal opcode raises the fault (`step_illegal`), a legal one leads where its opcode byte
says (`step_legal_engine`), and outside Running a step is no transition (`step_stopped`). -/
theorem engineTransitionsAreTheListedOnes : Obligations.EngineTransitionsAreTheListedOnes := by
  refine ⟨fun s hr => ?_, fun s t hs ht => ?_, fun _ _ _ => rfl⟩
  · cases hf : opcodeForm (s.read s.pc) with
    | none =>
      exact ⟨_, step_illegal hr hf, fun h0 => absurd (h0 ▸ hf) opcodeForm_brk_ne_none,
        fun _ => s.raiseUnimplemented_engine _, fun _ h => absurd rfl h⟩
    | some form =>
      obtain ⟨t, ht, he⟩ := step_legal_engine hr hf
      exact ⟨t, ht, fun h0 => he.trans (if_pos h0), fun h => (nomatch h), fun h0 _ => he.trans (if_neg h0)⟩
  · obtain ⟨hr, -⟩ := step_cases ht
    exact hs hr

end Sys2Proof

/-! ### The addressing-mode resolver (41_addressing_modes.md): the proofs of the addressing modes family -/

namespace Sys2Proof

open Sys2Proof.Machine Sys2Proof.Claims

/-! #### Well-formed descriptors -/

/-- Every row of the opcode table passes the descriptor check (30_encoding.md R86). -/
theorem descriptors_wellFormed : ∀ d ∈ descriptors, d.wellFormed = true :=
  List.all_eq_true.1 rfl

/-- Every instruction is well formed. -/
theorem Instr.wellFormed_eq_true (i : Instr) : i.wellFormed = true :=
  descriptors_wellFormed _ i.descriptor_mem_descriptors

/-- The mode of every instruction is one its mnemonic may have (41_addressing_modes.md R122, R126, R133). -/
theorem Instr.modeFitsMnemonic_eq_true (i : Instr) : modeFitsMnemonic i.mnemonic i.mode = true := by
  obtain ⟨-, h⟩ := Bool.and_eq_true_iff.1 i.wellFormed_eq_true
  exact h

/-- ZeroPageY is a mode of LDX and STX only (41_addressing_modes.md R126). -/
theorem Instr.mnemonic_of_mode_zpy {i : Instr} (h : i.mode = .zpy) : i.mnemonic = .ldx ∨ i.mnemonic = .stx := by
  have hm := i.modeFitsMnemonic_eq_true
  rw [h] at hm
  simpa [modeFitsMnemonic] using hm

/-! #### The page crossing of the indexed modes -/

namespace Machine

variable (s : State) (taken : Bool) (w : Addr)

/-- AbsoluteX crosses a page when the effective address has another high byte than the operand
(41_addressing_modes.md R128). -/
theorem operandPageCrossed_absx :
    operandPageCrossed s taken (.mem (.absx w)) = decide (hi8 (effectiveAddress s (.absx w)) ≠ hi8 w) :=
  decide_not.symm

/-- AbsoluteY crosses a page when the effective address has another high byte than the operand
(41_addressing_modes.md R129). -/
theorem operandPageCrossed_absy :
    operandPageCrossed s taken (.mem (.absy w)) = decide (hi8 (effectiveAddress s (.absy w)) ≠ hi8 w) :=
  decide_not.symm

end Machine

/-- Settles O22: the resolver's equations give every clause but three: the sum in the absolute modes is modulo 0x10000
(`add_zeroPage_toNat`), their page crossing is that of the effective address (`operandPageCrossed_absx` and
`operandPageCrossed_absy`), and the descriptor check holds ZeroPageY to LDX and STX (`Instr.mnemonic_of_mode_zpy`). -/
theorem directModesComputeTheirAddress : Obligations.DirectModesComputeTheirAddress := by
  intro s
  refine ⟨fun _ => rfl, ?zp, ?zpx, ?zpy, ?abs, ?absx, ?absy, fun _ => Instr.mnemonic_of_mode_zpy⟩
  case zp | zpx | zpy | abs => exact fun _ => ⟨rfl, rfl, fun _ => rfl⟩
  case absx => exact fun w => ⟨add_zeroPage_toNat w s.x, rfl, fun k => operandPageCrossed_absx s k w⟩
  case absy => exact fun w => ⟨add_zeroPage_toNat w s.y, rfl, fun k => operandPageCrossed_absy s k w⟩

end Sys2Proof

/-! ### Loads and stores (42_load_store.md): the proofs of the load and store family -/

namespace Sys2Proof

open Sys2Proof.Machine

namespace Claims

/-- Every mnemonic has exactly the encodings R87 lists for it: its instructions have the listed pairs, and a listed
opcode byte belongs to no other mnemonic. -/
theorem hasEncodings (ns : List Mnemonic) : HasEncodings ns := by
  intro n _ i
  rw [mem_encodingsOf_iff]
  constructor
  · intro hn
    exact ⟨i, hn, rfl, rfl⟩
  · rintro ⟨j, rfl, hop, -⟩
    exact congrArg Descriptor.mnemonic (Instr.descriptor_eq_of_opcode_eq hop.symm)

/-! #### A register write -/

/-- The state with one register holding `v`: what `r <- v` makes of it (00_scope.md R8). -/
def withReg (s : State) (r : Reg) (v : Byte) : State :=
  match r with
  | .A => { s with a := v }
  | .X => { s with x := v }
  | .Y => { s with y := v }
  | .S => { s with sp := v }

section RegisterWrite

variable (s : State) (r : Reg) (v : Byte)

theorem regValue_withReg (q : Reg) : regValue (withReg s r v) q = if q = r then v else regValue s q := by
  cases r <;> cases q <;> rfl

/-- A register write changes that register alone, and no PC. -/
theorem withReg_frame : Frame [r] [] [] s (withReg s r v) ∧ (withReg s r v).pc = s.pc := by
  have regs : ∀ q, q ∉ [r] → regValue (withReg s r v) q = regValue s q := fun q hq => by
    rw [regValue_withReg, if_neg (List.ne_of_not_mem_cons hq)]
  cases r <;> exact ⟨⟨⟨regs, fun _ _ => rfl, fun _ _ => rfl, rfl, rfl⟩, rfl⟩, rfl⟩

@[simp] theorem regValue_setZN (q : Reg) : regValue (s.setZN v) q = regValue s q := by
  cases q <;> rfl

@[simp] theorem regValue_advance (n : Nat) (q : Reg) : regValue (s.advance n) q = regValue s q := by
  cases q <;> rfl

@[simp] theorem regValue_write (c : Addr) (q : Reg) : regValue (s.write c v) q = regValue s q := by
  cases q <;> rfl

theorem hasZN_setZN : HasZN v (s.setZN v) :=
  ⟨State.setZN_flag s v .Z, State.setZN_flag s v .N⟩

/-- `SetZN` disturbs no flag but Z and N. -/
theorem setZN_flag_of_notMem {f : Flag} (hf : f ∉ [Flag.Z, .N]) : (s.setZN v).flag f = s.flag f := by
  obtain ⟨hz, hn⟩ : f ≠ .Z ∧ f ≠ .N := by simpa using hf
  rw [State.setZN_flag, if_neg hn, if_neg hz]

variable {s r v}

/-- An instruction that writes `v` to a register, calls `SetZN(v)` and advances does what `SetsRegister` says. -/
theorem setsRegister_of_exec {i : Instr} (e : exec i s = .next (((withReg s r v).setZN v).advance i.length)) :
    SetsRegister i r v s := by
  obtain ⟨⟨⟨regs, flags, cells, hcfg, hdraws⟩, hengine⟩, hpc⟩ := withReg_frame s r v
  refine ⟨_, e, ?reg, hasZN_setZN _ v, congrArg (· + _) hpc,
    ⟨?regs, fun f hf => ?flags, cells, hcfg, hdraws⟩, hengine⟩
  case reg => simp [regValue_withReg]
  case regs => simpa using regs
  case flags => exact (setZN_flag_of_notMem _ v hf).trans (flags f List.not_mem_nil)

end RegisterWrite

end Claims

namespace Machine

open Sys2Proof.Claims

variable {i : Instr} {s : State}

/-- A `value` handler that writes `f m` to a register and calls `SetZN(f m)`, in any of its modes. -/
theorem HandlesValue.setsRegister {h : Byte → State → State} {r : Reg} {f : Byte → Byte} (hi : HandlesValue h i s)
    (hh : ∀ m, h m s = (withReg s r (f m)).setZN (f m)) :
    ∃ m, operandValue s i.operand = some m ∧ SetsRegister i r (f m) s := by
  obtain ⟨m, hm, e⟩ := hi
  exact ⟨m, hm, setsRegister_of_exec (hh m ▸ e)⟩

/-- A store in any of its modes changes the cell at its effective address and PC, and nothing else. -/
theorem StoresByte.storesAtAddress {v : Byte} (hi : StoresByte v i s) : StoresAtAddress i v s := by
  obtain ⟨ea, hea, e⟩ := hi
  have cells : ∀ c, c ∉ [ea] → (s.write ea v).read c = s.read c := fun c hc => by
    rw [State.read_write, if_neg (List.ne_of_not_mem_cons hc)]
  exact ⟨ea, _, hea, e, s.read_write_same ea v, rfl, ⟨fun q _ => by simp, fun _ _ => rfl, cells, rfl, rfl⟩, rfl⟩

end Machine

/-- Settles O28: the handlers of the loads write the operand value to their register and set Z and N from it, in every
mode (`HandlesValue.setsRegister`). -/
theorem loadsSetTheRegisterAndItsFlags : Obligations.LoadsSetTheRegisterAndItsFlags := by
  refine ⟨Claims.hasEncodings _, fun i s => ⟨fun h => ?lda, fun h => ?ldx, fun h => ?ldy⟩⟩
  case lda | ldx | ldy => exact HandlesValue.setsRegister (exec_means_of h s) fun _ => rfl

/-- Settles O29: the stores write their register at the effective address, in every mode
(`StoresByte.storesAtAddress`). -/
theorem storesWriteTheRegisterAndNothingElse : Obligations.StoresWriteTheRegisterAndNothingElse := by
  refine ⟨Claims.hasEncodings _, fun i s => ⟨fun h => ?sta, fun h => ?stx, fun h => ?sty⟩⟩
  case sta | stx | sty => exact StoresByte.storesAtAddress (exec_means_of h s)

end Sys2Proof

/-! ### Transfers and stack (43_transfer_stack.md): the proofs of the transfer and stack family -/

namespace Sys2Proof

open Sys2Proof.Machine

namespace Claims

/-! #### The frames of the state's operations -/

/-- What two changes one after the other may change is what either may. -/
theorem Frame.trans {s t u : State} {r r' : List Reg} {f f' : List Flag} {c c' : List Addr} (h : Frame r f c s t)
    (h' : Frame r' f' c' t u) : Frame (r ++ r') (f ++ f') (c ++ c') s u := by
  obtain ⟨⟨regs, flags, cells, hcfg, hdraws⟩, hengine⟩ := h
  obtain ⟨⟨regs', flags', cells', hcfg', hdraws'⟩, hengine'⟩ := h'
  simp only [Frame, Unchanged, List.mem_append, not_or]
  exact ⟨⟨fun q hq => (regs' q hq.2).trans (regs q hq.1), fun g hg => (flags' g hg.2).trans (flags g hg.1),
    fun a ha => (cells' a ha.2).trans (cells a ha.1), hcfg'.trans hcfg, hdraws'.trans hdraws⟩, hengine'.trans hengine⟩

section Frames

variable (s : State)

theorem setZN_frame (v : Byte) : Frame [] [.Z, .N] [] s (s.setZN v) :=
  ⟨⟨fun q _ => regValue_setZN s v q, fun _ hf => setZN_flag_of_notMem s v hf, fun _ _ => rfl, rfl, rfl⟩, rfl⟩

theorem advance_frame (n : Nat) : Frame [] [] [] s (s.advance n) :=
  ⟨⟨fun q _ => regValue_advance s n q, fun _ _ => rfl, fun _ _ => rfl, rfl, rfl⟩, rfl⟩

theorem write_frame (c : Addr) (v : Byte) : Frame [] [] [c] s (s.write c v) :=
  ⟨⟨fun q _ => regValue_write s v c q, fun _ _ => rfl,
    fun a ha => (s.read_write c a v).trans (if_neg (List.ne_of_not_mem_cons ha)), rfl, rfl⟩, rfl⟩

/-- A push changes S and the stack cell that S names (10_state.md R23). -/
theorem push_frame (b : Byte) : Frame [.S] [] [stackCell s.sp] s (s.push b) :=
  (write_frame s (stackCell s.sp) b).trans (withReg_frame _ .S (s.sp - 1)).1

/-- A pull changes S alone (10_state.md R23). -/
theorem popped_frame : Frame [.S] [] [] s s.popped :=
  (withReg_frame s .S (s.sp + 1)).1

end Frames

end Claims

namespace Machine

open Sys2Proof.Claims

/-- An Implied handler that writes `v` to a register and calls `SetZN(v)`. -/
theorem HandlesImplied.setsRegister {h : State → State} {i : Instr} {s : State} {r : Reg} {v : Byte}
    (hi : HandlesImplied h i s) (hh : h s = (withReg s r v).setZN v) : SetsRegister i r v s := by
  obtain ⟨-, e⟩ := hi
  exact setsRegister_of_exec (hh ▸ e)

variable (s : State)

/-- TXS changes S alone (43_transfer_stack.md R155). -/
theorem transferXS_frame : Frame [.S] [] [] s (transferXS s) :=
  (withReg_frame s .S s.x).1

/-- PLA writes A, raises S and sets Z and N; A and S are written in either order (43_transfer_stack.md R160). -/
theorem pullA_eq : pullA s = (withReg s .A s.pulled).popped.setZN s.pulled := rfl

theorem pullA_frame : Frame [.A, .S] [.Z, .N] [] s (pullA s) := by
  rw [pullA_eq]
  exact ((withReg_frame s .A s.pulled).1.trans (popped_frame _)).trans (setZN_frame _ s.pulled)

theorem pullA_hasZN : HasZN s.pulled (pullA s) :=
  hasZN_setZN _ s.pulled

theorem exec_pha : exec .pha s = .next ((pushA s).advance 1) := (exec_means .pha s).2

theorem exec_pla : exec .pla s = .next ((pullA s).advance 1) := (exec_means .pla s).2

/-- PLA right after PHA pulls the byte that PHA pushed (10_state.md R23). -/
theorem pulled_after_pushA : ((pushA s).advance 1).pulled = s.a :=
  (s.pulled_push s.a).1

end Machine

/-- Settles O30: the five flag-setting transfers are register writes with `SetZN` (`HandlesImplied.setsRegister`); TXS
writes S alone (`transferXS_frame`). -/
theorem transfersCopyTheRegister : Obligations.TransfersCopyTheRegister := by
  refine ⟨Claims.hasEncodings _, fun s => ⟨?tax, ?tay, ?txa, ?tya, ?tsx, ?txs⟩⟩
  case tax => exact HandlesImplied.setsRegister (exec_means .tax s) rfl
  case tay => exact HandlesImplied.setsRegister (exec_means .tay s) rfl
  case txa => exact HandlesImplied.setsRegister (exec_means .txa s) rfl
  case tya => exact HandlesImplied.setsRegister (exec_means .tya s) rfl
  case tsx => exact HandlesImplied.setsRegister (exec_means .tsx s) rfl
  case txs => exact ⟨_, (exec_means .txs s).2, rfl, rfl, (transferXS_frame s).trans (Claims.advance_frame _ _)⟩

/-- Settles O31: PHA is a push of A (`push_frame`), PLA a pull into A with `SetZN` (`pullA_frame`), and PLA after PHA
finds the byte pushed (`pulled_after_pushA`) with S back where it was. -/
theorem phaPushesAndPlaPulls : Obligations.PhaPushesAndPlaPulls := by
  refine ⟨Claims.hasEncodings _, fun s => ⟨⟨_, exec_pha s, ?cell, rfl, rfl, ?phaFrame⟩,
    ⟨_, exec_pla s, rfl, rfl, pullA_hasZN s, rfl, ?plaFrame⟩,
    ⟨_, _, exec_pha s, exec_pla _, pulled_after_pushA s, (s.pulled_push s.a).2, ?zn, BitVec.add_assoc s.pc 1 1⟩⟩⟩
  case cell => exact s.read_write_same (stackCell s.sp) s.a
  case phaFrame => exact (Claims.push_frame s s.a).trans (Claims.advance_frame _ 1)
  case plaFrame => exact (pullA_frame s).trans (Claims.advance_frame _ 1)
  case zn =>
    rw [← pulled_after_pushA s]
    exact pullA_hasZN ((pushA s).advance 1)

end Sys2Proof

/-! ### Arithmetic (44_arithmetic.md): the proofs of the arithmetic family -/

namespace Sys2Proof

open Sys2Proof.Machine

namespace Claims

section Frames

variable {s t : State} {regs regs' : List Reg} {flags flags' : List Flag} {cells cells' : List Addr}

/-- A frame may name more than it has to. -/
theorem Frame.mono (h : Frame regs flags cells s t) (hr : regs ⊆ regs') (hf : flags ⊆ flags') (hc : cells ⊆ cells') :
    Frame regs' flags' cells' s t := by
  obtain ⟨⟨hregs, hflags, hcells, hcfg, hdraws⟩, hengine⟩ := h
  exact ⟨⟨fun q hq => hregs q fun h => hq (hr h), fun f hn => hflags f fun h => hn (hf h),
    fun c hn => hcells c fun h => hn (hc h), hcfg, hdraws⟩, hengine⟩

/-- A flag write changes that flag alone (00_scope.md R8). -/
theorem setFlag_frame (s : State) (f : Flag) (b : Bool) : Frame [] [f] [] s (s.setFlag f b) :=
  ⟨⟨fun q _ => by cases q <;> rfl, fun _ hg => s.setFlag_flag_ne b (List.ne_of_not_mem_cons hg), fun _ _ => rfl, rfl,
    rfl⟩, rfl⟩

end Frames

end Claims

namespace Machine

open Sys2Proof.Claims

/-! #### ADC's handler -/

section AddWithCarry

variable (m : Byte) (s : State)

/-- The widened sum with the carry as the number 0 or 1 (44_arithmetic.md R165). -/
theorem adcSum_eq (a m : Byte) (c : Bool) : adcSum a m c = a.toNat + m.toNat + (if c then 1 else 0) := by
  cases c <;> rfl

/-- ADC writes C and V, then A, and calls `SetZN` on the result (44_arithmetic.md R165). -/
theorem addWithCarry_eq :
    addWithCarry m s =
      (withReg ((s.setFlag .C (adcCarry s.a m (s.flag .C))).setFlag .V (adcOverflow s.a m (s.flag .C))) .A
        (adcResult s.a m (s.flag .C))).setZN (adcResult s.a m (s.flag .C)) := rfl

theorem addWithCarry_a : (addWithCarry m s).a = adcResult s.a m (s.flag .C) := rfl

theorem addWithCarry_pc : (addWithCarry m s).pc = s.pc := rfl

theorem addWithCarry_hasZN : HasZN (addWithCarry m s).a (addWithCarry m s) :=
  hasZN_setZN _ _

theorem addWithCarry_flag_V : (addWithCarry m s).flag .V = adcOverflow s.a m (s.flag .C) :=
  (setZN_flag_of_notMem _ _ (by decide)).trans (State.setFlag_flag_same _ .V _)

theorem addWithCarry_flag_C : (addWithCarry m s).flag .C = adcCarry s.a m (s.flag .C) :=
  calc (addWithCarry m s).flag .C
    _ = ((s.setFlag .C (adcCarry s.a m (s.flag .C))).setFlag .V (adcOverflow s.a m (s.flag .C))).flag .C :=
      setZN_flag_of_notMem _ _ (by decide)
    _ = (s.setFlag .C (adcCarry s.a m (s.flag .C))).flag .C := State.setFlag_flag_ne _ _ (by decide)
    _ = adcCarry s.a m (s.flag .C) := State.setFlag_flag_same s .C _

theorem addWithCarry_frame : Frame [.A] [.N, .V, .Z, .C] [] s (addWithCarry m s) := by
  rw [addWithCarry_eq]
  exact ((((setFlag_frame s .C _).trans (setFlag_frame _ .V _)).trans (withReg_frame _ .A _).1).trans
    (setZN_frame _ _)).mono (by decide) (by decide) (by decide)

/-- The sum, C and V that ADC's handler leaves, by the formulas of 44_arithmetic.md R165. -/
theorem addWithCarry_result :
    (∀ sum, sum = s.a.toNat + m.toNat + (if s.flag .C then 1 else 0) →
      (addWithCarry m s).a = BitVec.ofNat 8 sum ∧ (addWithCarry m s).flag .C = decide (sum > 0xFF)) ∧
    ((addWithCarry m s).flag .V = true ↔
      (~~~ (s.a ^^^ m) &&& (s.a ^^^ (addWithCarry m s).a) &&& 0x80) ≠ 0) := by
  refine ⟨?sum, ?overflow⟩
  case sum =>
    rintro _ rfl
    rw [← adcSum_eq]
    exact ⟨addWithCarry_a m s, addWithCarry_flag_C m s⟩
  case overflow =>
    rw [addWithCarry_flag_V, addWithCarry_a]
    exact bne_iff_ne

end AddWithCarry

/-! #### The handler of the compares -/

section CompareWith

variable (r m : Byte) (s : State)

theorem compareWith_flag_C : (compareWith r m s).flag .C = decide (m.toNat ≤ r.toNat) := by
  simp [compareWith, State.setFlag_flag, cmpCarry]

theorem compareWith_flag_Z : (compareWith r m s).flag .Z = decide (r = m) := by
  simp [compareWith, State.setFlag_flag, beq_eq_decide]

theorem compareWith_flag_N : (compareWith r m s).flag .N = (r - m).getLsbD 7 :=
  State.setFlag_flag_same _ .N _

theorem compareWith_frame : Frame [] [.C, .Z, .N] [] s (compareWith r m s) :=
  ((setFlag_frame s .C _).trans (setFlag_frame _ .Z _)).trans (setFlag_frame _ .N _)

end CompareWith

variable {i : Instr} {s : State}

/-- A `value` handler that compares the register value `r` with the operand value, in any of its modes. -/
theorem HandlesValue.compares {h : Byte → State → State} {r : Byte} (hi : HandlesValue h i s)
    (hh : ∀ m, h m s = compareWith r m s) : Compares i r s := by
  obtain ⟨m, hm, e⟩ := hi
  rw [hh] at e
  exact ⟨m, _, hm, e, compareWith_flag_C r m s, compareWith_flag_Z r m s, compareWith_flag_N r m s, rfl,
    (compareWith_frame r m s).trans (advance_frame _ _)⟩

/-! #### Read-modify-write of memory -/

/-- A read-modify-write handler in a memory mode: the instruction writes back the handler's result and leaves the flags
as the handler does. -/
theorem ModifiesOperand.modifiesMemory {h : Byte → State → Modified} {f : Byte → Byte} {flags : List Flag}
    {more : Byte → State → Prop} (hi : ModifiesOperand h i s) (hmode : i.mode ≠ .acc)
    (hresult : ∀ v, (h v s).result = f v) (hzn : ∀ v, HasZN (f v) (h v s).state) (hpc : ∀ v, (h v s).state.pc = s.pc)
    (hframe : ∀ v, Frame [] ([.Z, .N] ++ flags) [] s (h v s).state)
    (hmore : ∀ v ea n, more v (((h v s).state.write ea (f v)).advance n)) : ModifiesMemory i f flags more s := by
  obtain ⟨hacc, -⟩ | ⟨-, ea, hea, e⟩ := hi
  · exact absurd hacc hmode
  · rw [hresult] at e
    refine ⟨ea, _, hea, e, State.read_write_same _ ea _, hzn _, hmore _ ea _, congrArg (· + _) (hpc _), ?frame⟩
    simpa using ((hframe (s.read ea)).trans (write_frame _ ea _)).trans (advance_frame _ i.length)

/-- A handler that only calls `SetZN` on the byte it writes back, in a memory mode. -/
theorem ModifiesOperand.modifiesMemory_of_setZN {h : Byte → State → Modified} {f : Byte → Byte}
    (hi : ModifiesOperand h i s) (hmode : i.mode ≠ .acc) (hh : ∀ v, h v s = ⟨f v, s.setZN (f v)⟩) :
    ModifiesMemory i f [] (fun _ _ => True) s := by
  refine hi.modifiesMemory hmode (fun v => ?result) (fun v => ?zn) (fun v => ?pc) (fun v => ?frame)
    fun _ _ _ => trivial <;> rw [hh]
  case zn => exact hasZN_setZN s (f v)
  case pc => exact s.setZN_pc (f v)
  case frame => exact setZN_frame s (f v)

end Machine

/-- Settles O35: ADC's handler runs on the operand value in every mode, and leaves what its formulas say
(`addWithCarry_result`, `addWithCarry_hasZN`) and nothing else changed (`addWithCarry_frame`); none of them reads D. -/
theorem adcAddsWithCarry : Obligations.AdcAddsWithCarry := by
  refine ⟨Claims.hasEncodings _, fun i s h => ?_⟩
  obtain ⟨m, hm, e⟩ := exec_means_of h s
  obtain ⟨hsum, hoverflow⟩ := addWithCarry_result m s
  exact ⟨m, _, hm, e, hsum, hoverflow, addWithCarry_hasZN m s, congrArg (· + _) (addWithCarry_pc m s),
    (addWithCarry_frame m s).trans (Claims.advance_frame _ _)⟩

/-- Settles O38: the three handlers compare their register with the operand value, in every mode
(`HandlesValue.compares`). -/
theorem comparesSetCarryZeroNegative : Obligations.ComparesSetCarryZeroNegative := by
  refine ⟨Claims.hasEncodings _, fun i s => ⟨fun h => ?cmp, fun h => ?cpx, fun h => ?cpy⟩⟩
  case cmp | cpx | cpy => exact HandlesValue.compares (exec_means_of h s) fun _ => rfl

/-- Settles O39: INC and DEC have no Accumulator mode, and their handlers call `SetZN` on the byte they write back
(`ModifiesOperand.modifiesMemory_of_setZN`). -/
theorem incAndDecModifyOneCell : Obligations.IncAndDecModifyOneCell := by
  refine ⟨Claims.hasEncodings _, fun i s => ⟨fun h => ?inc, fun h => ?dec⟩⟩
  case inc | dec =>
    obtain ⟨hmode, hi⟩ := exec_means_of h s
    exact hi.modifiesMemory_of_setZN hmode fun _ => rfl

/-- Settles O40: the four counts are register writes with `SetZN` (`HandlesImplied.setsRegister`). -/
theorem indexRegistersCountByOne : Obligations.IndexRegistersCountByOne := by
  refine ⟨Claims.hasEncodings _, fun s => ⟨?inx, ?iny, ?dex, ?dey⟩⟩
  case inx => exact HandlesImplied.setsRegister (exec_means .inx s) rfl
  case iny => exact HandlesImplied.setsRegister (exec_means .iny s) rfl
  case dex => exact HandlesImplied.setsRegister (exec_means .dex s) rfl
  case dey => exact HandlesImplied.setsRegister (exec_means .dey s) rfl

end Sys2Proof

/-! ### Logic, shifts and rotates (45_logic_shift.md): the proofs of the logic and shift family -/

namespace Sys2Proof

open Sys2Proof.Machine

namespace Claims

/-! #### A shift in every mode -/

/-- Bit 7 of a shift's result is N after it, in every mode. -/
theorem Shifts.flag_N {i : Instr} {f : Byte → Byte} {out : Byte → Bool} {s t : State} {b : Bool}
    (hi : Shifts i f out s) (hf : ∀ v, (f v).getLsbD 7 = b) (e : exec i s = .next t) : t.flag .N = b := by
  obtain ⟨hacc, hmem⟩ := hi
  by_cases hmode : i.mode = .acc
  · obtain ⟨t', e', -, ⟨-, hn⟩, -⟩ := hacc hmode
    cases e.symm.trans e'
    exact hn.trans (hf _)
  · obtain ⟨ea, t', -, e', -, ⟨-, hn⟩, -⟩ := hmem hmode
    cases e.symm.trans e'
    exact hn.trans (hf _)

/-! #### Executions of one instruction in a row -/

/-- What holds at count 0 and what each execution of an instruction takes from one count to the next holds after any
number of executions. -/
theorem execTimes_counts {i : Instr} {R : Nat → State → Prop} {s : State} (h0 : R 0 s)
    (hstep : ∀ k t, R k t → ∃ u, exec i t = .next u ∧ R (k + 1) u) (n : Nat) :
    ∃ t, execTimes i n s = .next t ∧ R n t := by
  induction n generalizing s R with
  | zero => exact ⟨s, rfl, h0⟩
  | succ n ih =>
    obtain ⟨t, e, ht⟩ := hstep 0 s h0
    simpa only [execTimes, e] using ih ht fun k => hstep (k + 1)

/-- A frame followed by the same frame. -/
theorem Frame.trans_self {s t u : State} {regs : List Reg} {flags : List Flag} {cells : List Addr}
    (h : Frame regs flags cells s t) (h' : Frame regs flags cells t u) : Frame regs flags cells s u :=
  (h.trans h').mono (by simp) (by simp) (by simp)

end Claims

namespace Machine

open Sys2Proof.Claims

/-! #### The handler of BIT -/

section BitTest

variable (m : Byte) (s : State)

theorem bitTest_flag_Z : (bitTest m s).flag .Z = decide (s.a &&& m = 0) := by
  simp [bitTest, State.setFlag_flag, beq_eq_decide]

theorem bitTest_flag_N : (bitTest m s).flag .N = m.getLsbD 7 := by
  simp [bitTest, State.setFlag_flag]

theorem bitTest_flag_V : (bitTest m s).flag .V = m.getLsbD 6 :=
  State.setFlag_flag_same _ .V _

theorem bitTest_frame : Frame [] [.N, .V, .Z] [] s (bitTest m s) :=
  (((setFlag_frame s .Z _).trans (setFlag_frame _ .N _)).trans (setFlag_frame _ .V _)).mono (by decide) (by decide)
    (by decide)

end BitTest

/-! #### The handler of the shifts and rotates -/

section Shifted

variable (r : Shifted) (s : State)

theorem shifted_hasZN : HasZN r.result (shifted r s).state :=
  hasZN_setZN _ r.result

theorem shifted_flag_C : (shifted r s).state.flag .C = r.out :=
  (setZN_flag_of_notMem _ _ (by decide)).trans (State.setFlag_flag_same s .C _)

theorem shifted_frame : Frame [] [.Z, .N, .C] [] s (shifted r s).state :=
  ((setFlag_frame s .C _).trans (setZN_frame _ r.result)).mono (by decide) (by decide) (by decide)

end Shifted

variable {i : Instr} {s : State}

/-- A read-modify-write handler that shifts `v` to `f v` and `out v` into C, in Accumulator mode and in the memory
modes (45_logic_shift.md R193). -/
theorem ModifiesOperand.shifts {h : Byte → State → Modified} {f : Byte → Byte} {out : Byte → Bool}
    (hi : ModifiesOperand h i s) (hh : ∀ v, h v s = shifted ⟨f v, out v⟩ s) : Shifts i f out s := by
  refine ⟨fun hmode => ?acc, fun hmode => ?mem⟩
  case acc =>
    obtain ⟨-, -, e⟩ | ⟨hne, -⟩ := hi
    · rw [hh] at e
      exact ⟨_, e, rfl, shifted_hasZN _ s, shifted_flag_C _ s, rfl,
        ((shifted_frame _ s).trans (withReg_frame _ .A (f s.a)).1).trans (advance_frame _ i.length)⟩
    · exact absurd hmode hne
  case mem =>
    refine hi.modifiesMemory hmode (fun v => ?result) (fun v => ?zn) (fun v => ?pc) (fun v => ?frame)
      (fun v ea n => ?carry) <;> rw [hh]
    case result => rfl
    case zn => exact shifted_hasZN _ s
    case pc => rfl
    case frame => exact shifted_frame _ s
    case carry => exact shifted_flag_C ⟨f v, out v⟩ s

/-! #### ROL as a rotation of nine bits (45_logic_shift.md R191) -/

/-- The carry and the byte after ROL are the nine bits {C, v} rotated left by one. -/
theorem rol_eq_rotateLeft (c : Bool) (v : Byte) :
    BitVec.cons (v.getLsbD 7) ((v <<< 1) ||| (if c then 0x01 else 0x00)) = (BitVec.cons c v).rotateLeft 1 := by
  ext k hk
  cases k with
  | zero => cases c <;> simp [BitVec.getElem_cons]
  | succ k =>
    obtain rfl | hlt : k = 7 ∨ k < 7 := by omega
    · simp [BitVec.getElem_cons]
    · cases c <;> simp [BitVec.getElem_cons, show k ≠ 7 by omega, show k ≠ 8 by omega]

/-- Where each bit of nine rotated bits comes from, as one equation modulo 9. -/
theorem getElem_rotateLeft_nineBits (x : BitVec 9) (n : Nat) {k : Nat} (hk : k < 9) :
    (x.rotateLeft n)[k] = x[(k + 8 * n) % 9]'(Nat.mod_lt _ (by decide)) := by
  rw [BitVec.getElem_rotateLeft]
  split <;> congr 1 <;> omega

theorem rotateLeft_rotateLeft_one (x : BitVec 9) (n : Nat) : (x.rotateLeft n).rotateLeft 1 = x.rotateLeft (n + 1) := by
  ext k hk
  simp only [getElem_rotateLeft_nineBits]
  congr 1
  omega

theorem rotateLeft_zero (x : BitVec 9) : x.rotateLeft 0 = x := by
  ext k hk
  simp

theorem rotateLeft_nine (x : BitVec 9) : x.rotateLeft 9 = x :=
  BitVec.rotateLeft_mod_eq_rotateLeft.symm.trans (rotateLeft_zero x)

/-- ROL has Accumulator mode and four memory modes that use no index but X and no pointer (45_logic_shift.md R191). -/
theorem mode_of_rol {i : Instr} (h : i.mnemonic = .rol) : i.mode ∈ [Mode.acc, .zp, .zpx, .abs, .absx] :=
  List.mem_map_of_mem (f := Prod.snd) ((hasEncodings [.rol] .rol List.mem_cons_self i).1 h)

/-- In the modes of ROL the address depends on X alone (41_addressing_modes.md R124 to R128). -/
theorem operandAddress_of_x_eq {o : Operand} {t : State} (ho : o.mode ∈ [Mode.acc, .zp, .zpx, .abs, .absx])
    (hx : t.x = s.x) : operandAddress t o = operandAddress s o := by
  cases o with
  | implied | accumulator | immediate _ => rfl
  | indirect _ | relative _ => simp [Operand.mode] at ho
  | mem m =>
    cases m with
    | zp _ | abs _ => rfl
    | zpx _ | absx _ => simp [operandAddress, effectiveAddress, hx]
    | zpy _ | absy _ | indx _ | indy _ => simp [Operand.mode] at ho

/-- After `n` rotations of the byte that `byte` reads, starting at `s`: the nine bits {C, v} are rotated left by `n`,
and only the named registers and cells and the flags Z, N and C have changed. -/
def RotatedLeft (byte : State → Byte) (regs : List Reg) (cells : List Addr) (s : State) (n : Nat) (t : State) : Prop :=
  BitVec.cons (t.flag .C) (byte t) = (BitVec.cons (s.flag .C) (byte s)).rotateLeft n ∧
  Frame regs [.Z, .N, .C] cells s t

section RotatedLeft

variable {byte : State → Byte} {regs : List Reg} {cells : List Addr} {n : Nat} {t u : State}

theorem RotatedLeft.zero : RotatedLeft byte regs cells s 0 s :=
  ⟨(rotateLeft_zero _).symm, ⟨fun _ _ => rfl, fun _ _ => rfl, fun _ _ => rfl, rfl, rfl⟩, rfl⟩

theorem RotatedLeft.frame (h : RotatedLeft byte regs cells s n t) : Frame regs [.Z, .N, .C] cells s t :=
  h.2

/-- One more ROL. -/
theorem RotatedLeft.succ (h : RotatedLeft byte regs cells s n t)
    (hbyte : byte u = (byte t <<< 1) ||| (if t.flag .C then 0x01 else 0x00)) (hc : u.flag .C = (byte t).getLsbD 7)
    (hframe : Frame regs [.Z, .N, .C] cells t u) : RotatedLeft byte regs cells s (n + 1) u := by
  obtain ⟨hbits, hst⟩ := h
  refine ⟨?_, hst.trans_self hframe⟩
  rw [hbyte, hc, rol_eq_rotateLeft, hbits, rotateLeft_rotateLeft_one]

/-- Nine rotations restore the byte and C. -/
theorem RotatedLeft.nine (h : RotatedLeft byte regs cells s 9 t) : byte t = byte s ∧ t.flag .C = s.flag .C := by
  obtain ⟨hbits, -⟩ := h
  rw [rotateLeft_nine] at hbits
  exact ⟨by simpa using congrArg (BitVec.setWidth 8) hbits, by simpa using congrArg BitVec.msb hbits⟩

end RotatedLeft

theorem rol_shifts (h : i.mnemonic = .rol) :
    Shifts i (fun v => (v <<< 1) ||| (if s.flag .C then 0x01 else 0x00)) (fun v => v.getLsbD 7) s :=
  ModifiesOperand.shifts (exec_means_of h s) fun _ => rfl

/-- Any number of ROLs of A. -/
theorem execTimes_rol_acc (h : i.mnemonic = .rol) (hmode : i.mode = .acc) (n : Nat) :
    ∃ t, execTimes i n s = .next t ∧ RotatedLeft State.a [.A] [] s n t := by
  refine execTimes_counts RotatedLeft.zero (fun k t ht => ?_) n
  obtain ⟨u, e, ha, -, hc, -, hframe⟩ := (rol_shifts (s := t) h).1 hmode
  exact ⟨u, e, ht.succ ha hc hframe⟩

/-- Any number of ROLs of the cell at the effective address, which stays the same: ROL does not write X. -/
theorem execTimes_rol_mem (h : i.mnemonic = .rol) {ea : Addr} (hmode : i.mode ≠ .acc)
    (hea : operandAddress s i.operand = some ea) (n : Nat) :
    ∃ t, execTimes i n s = .next t ∧ RotatedLeft (State.read · ea) [] [ea] s n t := by
  refine execTimes_counts RotatedLeft.zero (fun k t ht => ?_) n
  obtain ⟨ea', u, hea', e, hbyte, -, hc, -, hframe⟩ := (rol_shifts (s := t) h).2 hmode
  obtain ⟨⟨regs, -⟩, -⟩ := ht.frame
  have hsame : operandAddress t i.operand = operandAddress s i.operand :=
    operandAddress_of_x_eq (i.operand_mode ▸ mode_of_rol h) (regs .X List.not_mem_nil)
  obtain rfl : ea' = ea := Option.some.inj (hea'.symm.trans (hsame.trans hea))
  exact ⟨u, e, ht.succ hbyte hc hframe⟩

/-- Nine ROLs of one form restore A, C and memory. -/
theorem execTimes_rol_nine (h : i.mnemonic = .rol) :
    ∃ t, execTimes i 9 s = .next t ∧ t.a = s.a ∧ t.flag .C = s.flag .C ∧ ∀ c, t.read c = s.read c := by
  by_cases hmode : i.mode = .acc
  · obtain ⟨t, e, ht⟩ := execTimes_rol_acc (s := s) h hmode 9
    obtain ⟨ha, hc⟩ := ht.nine
    obtain ⟨⟨-, -, cells, -⟩, -⟩ := ht.frame
    exact ⟨t, e, ha, hc, fun c => cells c List.not_mem_nil⟩
  · obtain ⟨ea, -, hea, -⟩ := (rol_shifts (s := s) h).2 hmode
    obtain ⟨t, e, ht⟩ := execTimes_rol_mem h hmode hea 9
    obtain ⟨hbyte, hc⟩ := ht.nine
    obtain ⟨⟨regs, -, cells, -⟩, -⟩ := ht.frame
    refine ⟨t, e, regs .A List.not_mem_nil, hc, fun c => ?_⟩
    by_cases hcell : c = ea
    · exact hcell ▸ hbyte
    · exact cells c (by simpa using hcell)

end Machine

/-- Settles O41: the handlers of AND, ORA and EOR write the combination of A and the operand value to A and set Z and N
from it, in every mode (`HandlesValue.setsRegister`). -/
theorem logicCombinesIntoA : Obligations.LogicCombinesIntoA := by
  refine ⟨Claims.hasEncodings _, fun i s => ⟨fun h => ?and, fun h => ?ora, fun h => ?eor⟩⟩
  case and | ora | eor => exact HandlesValue.setsRegister (exec_means_of h s) fun _ => rfl

/-- Settles O42: BIT's handler runs on the operand value in both modes and writes three flags (`bitTest_flag_Z`,
`bitTest_flag_N`, `bitTest_flag_V`) and nothing else (`bitTest_frame`). -/
theorem bitTestsWithoutChangingA : Obligations.BitTestsWithoutChangingA := by
  refine ⟨Claims.hasEncodings _, fun i s h => ?_⟩
  obtain ⟨m, hm, e⟩ := exec_means_of h s
  exact ⟨m, _, hm, e, bitTest_flag_Z m s, bitTest_flag_N m s, bitTest_flag_V m s, rfl,
    (bitTest_frame m s).trans (Claims.advance_frame _ _)⟩

/-- Settles O43: the handlers of ASL and LSR shift in every mode (`ModifiesOperand.shifts`), and LSR leaves bit 7 of the
result, which N is, 0. -/
theorem aslAndLsrShiftByOne : Obligations.AslAndLsrShiftByOne := by
  refine ⟨Claims.hasEncodings _, fun i s => ⟨fun h => ?asl, fun h => ?lsr⟩⟩
  case asl => exact ModifiesOperand.shifts (exec_means_of h s) fun _ => rfl
  case lsr =>
    have hi : Claims.Shifts i (fun v => v >>> 1) (fun v => v.getLsbD 0) s :=
      ModifiesOperand.shifts (exec_means_of h s) fun _ => rfl
    exact ⟨hi, fun t => hi.flag_N fun v => by simp⟩

/-- Settles O44: the handlers of ROL and ROR shift in every mode (`ModifiesOperand.shifts`), ROR puts the old carry in
bit 7 of the result, which N is, and nine rotations of the nine bits {C, v} are none (`execTimes_rol_nine`). -/
theorem rolAndRorRotateThroughCarry : Obligations.RolAndRorRotateThroughCarry := by
  refine ⟨Claims.hasEncodings _, fun i s => ⟨rol_shifts, fun h => ?ror⟩, fun i s => execTimes_rol_nine⟩
  case ror =>
    have hi : Claims.Shifts i (fun v => (v >>> 1) ||| (if s.flag .C then 0x80 else 0x00)) (fun v => v.getLsbD 0) s :=
      ModifiesOperand.shifts (exec_means_of h s) fun _ => rfl
    exact ⟨hi, fun t => hi.flag_N fun v => by cases s.flag .C <;> simp⟩

end Sys2Proof

/-! ### Jumps, calls, returns and branches (46_control_flow.md): the proofs of the control flow family -/

namespace Sys2Proof

open Sys2Proof.Machine

namespace Claims

section Frames

variable (s : State)

/-- A jump changes PC alone (00_scope.md R11). -/
theorem jump_frame (target : Addr) : Frame [] [] [] s (s.jump target) :=
  ⟨⟨fun q _ => by cases q <;> rfl, fun _ _ => rfl, fun _ _ => rfl, rfl, rfl⟩, rfl⟩

/-- A 16-bit pull changes S alone (00_scope.md R10). -/
theorem popped16_frame : Frame [.S] [] [] s s.popped16 :=
  (popped_frame s).trans_self (popped_frame s.popped)

end Frames

end Claims

namespace Machine

open Sys2Proof.Claims

/-! #### 16-bit pulls -/

/-- A 16-bit pull raises S by two modulo 256 (00_scope.md R10). -/
theorem State.popped16_sp_eq (s : State) : s.popped16.sp = s.sp + 2 :=
  BitVec.add_assoc s.sp 1 1

/-- A 16-bit pull takes the low byte from the cell at S + 1 and the high byte from the cell at S + 2
(00_scope.md R10, decision D9). -/
theorem State.pulled16_eq (s : State) :
    s.pulled16 = word16 (s.read (stackCell (s.sp + 2))) (s.read (stackCell (s.sp + 1))) := by
  rw [← s.popped16_sp_eq]
  rfl

section AfterPush16

variable {s u : State} {w : Addr} (hsp : u.sp = (s.push16 w).sp)
include hsp

/-- A 16-bit pull at the S that a 16-bit push left restores S, whatever else has changed. -/
theorem popped16_sp_after_push16 : u.popped16.sp = s.sp := by
  rw [State.popped16_sp_eq, hsp, State.push16_sp]
  bv_omega

/-- A 16-bit pull at the S that a 16-bit push left, from the two cells as the push left them, takes the word pushed,
whatever else has changed (decision D9: the push and the pull agree on the order of the two bytes). -/
theorem pulled16_after_push16 (hhi : u.read (stackCell s.sp) = (s.push16 w).read (stackCell s.sp))
    (hlo : u.read (stackCell (s.sp - 1)) = (s.push16 w).read (stackCell (s.sp - 1))) : u.pulled16 = w := by
  have hi : u.sp + 2 = s.sp := u.popped16_sp_eq.symm.trans (popped16_sp_after_push16 hsp)
  have lo : u.sp + 1 = s.sp - 1 := by rw [← hi]; bv_omega
  rw [State.pulled16_eq, hi, lo, hhi, hlo, State.push16_read, State.push16_read, if_neg (stackCell_ne_one s.sp),
    if_pos rfl, if_pos rfl, word16_hi8_lo8]

end AfterPush16

/-! #### JSR and RTS -/

theorem exec_rts (s : State) : exec .rts s = .next (s.popped16.jump (s.pulled16 + 1)) := (exec_means .rts s).2

theorem exec_jsr (s : State) (w : Addr) : exec (.jsr w) s = .next ((s.push16 (s.pc + 2)).jump w) := rfl

/-! #### Branches -/

/-- A branch whose condition is that a flag has the wanted value (46_control_flow.md R203). -/
theorem BranchesOn.branches {cond : State → Bool} {i : Instr} {s : State} {d : Byte} {f : Flag} {wanted : Bool}
    (hi : BranchesOn cond i s) (hd : i.operand = .relative d) (hc : cond s = true ↔ s.flag f = wanted) :
    Branches i d f wanted s := by
  obtain ⟨d', hd', e⟩ := hi
  obtain rfl : d' = d := Operand.relative.inj (hd'.symm.trans hd)
  by_cases hf : s.flag f = wanted
  · rw [if_pos (hc.2 hf)] at e
    exact ⟨_, e, (if_pos hf).symm, jump_frame s _⟩
  · rw [if_neg (mt hc.1 hf)] at e
    exact ⟨_, e, (if_neg hf).symm, advance_frame s 2⟩

end Machine

/-- Settles O47: RTS is a 16-bit pull (`State.pulled16_eq`) and a jump one past the word pulled, and a pull from the
cells and the S that JSR left takes JSR's word back (`pulled16_after_push16`). -/
theorem rtsReturnsPastThePulledAddress : Obligations.RtsReturnsPastThePulledAddress := by
  refine ⟨Claims.hasEncodings _, fun s => ?rts, fun s t u w e hsp hhi hlo => ?pair⟩
  case rts =>
    exact ⟨_, exec_rts s, congrArg (· + 1) s.pulled16_eq, s.popped16_sp_eq,
      (Claims.popped16_frame s).trans (Claims.jump_frame _ _)⟩
  case pair =>
    cases (exec_jsr s w).symm.trans e
    have hpulled : u.pulled16 = s.pc + 2 := pulled16_after_push16 hsp hhi hlo
    exact ⟨_, exec_rts u, (congrArg (· + 1) hpulled).trans (BitVec.add_assoc s.pc 2 1), popped16_sp_after_push16 hsp⟩

/-- Settles O48: each branch tests the one flag that its rule names for the value wanted (`BranchesOn.branches`). -/
theorem branchesFollowTheirFlag : Obligations.BranchesFollowTheirFlag := by
  refine ⟨Claims.hasEncodings _, fun s d => ⟨?bcc, ?bcs, ?beq, ?bne, ?bmi, ?bpl, ?bvc, ?bvs⟩⟩
  case bcc => exact BranchesOn.branches (exec_means (.bcc d) s) rfl (.of_eq (Bool.not_eq_true' _))
  case bcs => exact BranchesOn.branches (exec_means (.bcs d) s) rfl Iff.rfl
  case beq => exact BranchesOn.branches (exec_means (.beq d) s) rfl Iff.rfl
  case bne => exact BranchesOn.branches (exec_means (.bne d) s) rfl (.of_eq (Bool.not_eq_true' _))
  case bmi => exact BranchesOn.branches (exec_means (.bmi d) s) rfl Iff.rfl
  case bpl => exact BranchesOn.branches (exec_means (.bpl d) s) rfl (.of_eq (Bool.not_eq_true' _))
  case bvc => exact BranchesOn.branches (exec_means (.bvc d) s) rfl (.of_eq (Bool.not_eq_true' _))
  case bvs => exact BranchesOn.branches (exec_means (.bvs d) s) rfl Iff.rfl

end Sys2Proof

/-! ### Flag instructions (47_flag_system.md): the proofs of the flag system family -/

namespace Sys2Proof

open Sys2Proof.Machine

namespace Machine

open Sys2Proof.Claims

/-- An Implied handler that writes one flag and advances (47_flag_system.md R220). -/
theorem HandlesImplied.writesOneFlag {i : Instr} {s : State} {f : Flag} {b : Bool}
    (hi : HandlesImplied (·.setFlag f b) i s) : WritesOneFlag i f b s := by
  obtain ⟨-, e⟩ := hi
  exact ⟨_, e, s.setFlag_flag_same f b, rfl, (setFlag_frame s f b).trans (advance_frame _ i.length)⟩

end Machine

/-- Settles O49: the seven handlers are each one flag write before the advance (`HandlesImplied.writesOneFlag`). -/
theorem flagInstructionsWriteOneFlag : Obligations.FlagInstructionsWriteOneFlag := by
  refine ⟨Claims.hasEncodings _, fun s => ⟨?clc, ?sec, ?cli, ?sei, ?cld, ?sed, ?clv⟩⟩
  case clc => exact HandlesImplied.writesOneFlag (exec_means .clc s)
  case sec => exact HandlesImplied.writesOneFlag (exec_means .sec s)
  case cli => exact HandlesImplied.writesOneFlag (exec_means .cli s)
  case sei => exact HandlesImplied.writesOneFlag (exec_means .sei s)
  case cld => exact HandlesImplied.writesOneFlag (exec_means .cld s)
  case sed => exact HandlesImplied.writesOneFlag (exec_means .sed s)
  case clv => exact HandlesImplied.writesOneFlag (exec_means .clv s)

end Sys2Proof

/-! ### Encoding and decoding (30_encoding.md): the two round trips, and the step of decoded bytes -/

namespace Sys2Proof

open Sys2Proof.Machine

/-! #### The encoding of a row of the opcode table -/

/-- The operand bytes of a format, out of the two that may follow an opcode (30_encoding.md R80). -/
def Form.operandBytes (form : Form) (b1 b2 : Byte) : List Byte := [b1, b2].take (form.length - 1)

/-- Every row of the opcode table builds instructions that carry the operand bytes of its format. -/
theorem opcodeTable_build_bytes (b1 b2 : Byte) :
    opcodeTable.map (fun row => (row.2.build b1 b2).operand.bytes) =
      opcodeTable.map (fun row => row.2.operandBytes b1 b2) := by
  simp [opcodeTable, opcodesLoadStore, opcodesTransferStack, opcodesArithmetic, opcodesLogicShift, opcodesControlFlow,
    opcodesFlagSystem, Form.build, Form.operandBytes, Form.length, Instr.operand, Operand.bytes]

set_option maxRecDepth 4000 in
/-- Every row of the opcode table builds instructions of the length of its format. -/
theorem opcodeTable_build_length (b1 b2 : Byte) :
    opcodeTable.map (fun row => (row.2.build b1 b2).length) = opcodeTable.map (fun row => row.2.length) := rfl

/-- The encoding of the instruction that a legal opcode byte and two more bytes stand for. -/
theorem encode_build {op : Byte} {form : Form} (h : opcodeForm op = some form) (b1 b2 : Byte) :
    encode (form.build b1 b2) = op :: form.operandBytes b1 b2 :=
  congrArg₂ List.cons (build_opcode h b1 b2)
    (List.map_inj_left.1 (opcodeTable_build_bytes b1 b2) _ (opcodeForm_mem h))

theorem build_length {op : Byte} {form : Form} (h : opcodeForm op = some form) (b1 b2 : Byte) :
    (form.build b1 b2).length = form.length :=
  List.map_inj_left.1 (opcodeTable_build_length b1 b2) _ (opcodeForm_mem h)

/-- Each instruction is built by the row of the opcode table at its place in the list of instructions. -/
theorem Instr.eq_build_row (i : Instr) :
    ∃ form b1 b2, form.build b1 b2 = i ∧ opcodeTable[i.ctorIdx]? = some (i.opcode, form) := by
  cases i <;> first
    | exact ⟨.f2 _, _, 0, rfl, rfl⟩
    | exact ⟨.f3 _, _, _, congrArg _ (word16_hi8_lo8 _), rfl⟩
    | exact ⟨.f1 _, 0, 0, rfl, rfl⟩

/-- A row is found by its opcode byte when no two rows have one. -/
theorem findForm_of_mem {op : Byte} {form : Form} {rows : List (Byte × Form)} (hn : (rows.map Prod.fst).Nodup)
    (h : (op, form) ∈ rows) : findForm op rows = some form := by
  induction rows with
  | nil => simp at h
  | cons row rest ih =>
    obtain ⟨hrow, hrest⟩ := List.nodup_cons.1 hn
    obtain rfl | h := List.mem_cons.1 h
    · simp [findForm]
    · have hne : row.1 ≠ op := fun e => hrow (e ▸ List.mem_map_of_mem (f := Prod.fst) h)
      rw [findForm, if_neg hne, ih hrest h]

theorem opcodeTable_fst_nodup : (opcodeTable.map Prod.fst).Nodup := by
  have h : descriptors.map Descriptor.opcode = opcodeTable.map Prod.fst :=
    List.map_map.trans (opcodeTable_build_opcode 0 0)
  exact h ▸ descriptors_opcode_nodup

/-- Every instruction is the one that its opcode byte and two more bytes stand for. -/
theorem Instr.eq_build (i : Instr) : ∃ form b1 b2, opcodeForm i.opcode = some form ∧ form.build b1 b2 = i := by
  obtain ⟨form, b1, b2, hi, hrow⟩ := i.eq_build_row
  exact ⟨form, b1, b2, findForm_of_mem opcodeTable_fst_nodup (List.mem_of_getElem? hrow), hi⟩

/-! #### The decoder -/

/-- Bytes that begin with a legal opcode and the operand bytes of its format decode to the form's instruction. -/
theorem decode_operandBytes {op : Byte} {form : Form} (h : opcodeForm op = some form) (b1 b2 : Byte)
    (rest : List Byte) : decode (op :: form.operandBytes b1 b2 ++ rest) = .ok (form.build b1 b2) rest := by
  cases form <;> simp [decode, h, Form.operandBytes, Form.length, Form.build]

/-- Bytes that decode begin with a legal opcode and the operand bytes of its format. -/
theorem decode_eq_ok {bytes rest : List Byte} {i : Instr} (h : decode bytes = .ok i rest) :
    ∃ op form b1 b2, opcodeForm op = some form ∧ bytes = op :: form.operandBytes b1 b2 ++ rest ∧
      i = form.build b1 b2 := by
  cases bytes with
  | nil => cases h
  | cons op tail =>
    cases hf : opcodeForm op with
    | none => simp [decode_illegal tail hf] at h
    | some form =>
      match form, tail with
      | .f1 j, tail =>
        simp only [decode, hf, Decoded.ok.injEq] at h
        obtain ⟨rfl, rfl⟩ := h
        exact ⟨op, _, 0, 0, hf, rfl, rfl⟩
      | .f2 f, b1 :: tail =>
        simp only [decode, hf, Decoded.ok.injEq] at h
        obtain ⟨rfl, rfl⟩ := h
        exact ⟨op, _, b1, 0, hf, rfl, rfl⟩
      | .f3 f, b1 :: b2 :: tail =>
        simp only [decode, hf, Decoded.ok.injEq] at h
        obtain ⟨rfl, rfl⟩ := h
        exact ⟨op, _, b1, b2, hf, rfl, rfl⟩
      | .f2 f, [] | .f3 f, [] | .f3 f, [_] => simp [decode, hf] at h

/-- Three bytes decode to what their opcode byte's form builds of the other two. -/
theorem opcodeForm_of_decode {op b1 b2 : Byte} {i : Instr} {rest : List Byte}
    (h : decode [op, b1, b2] = .ok i rest) : ∃ form, opcodeForm op = some form ∧ i = form.build b1 b2 := by
  cases hf : opcodeForm op with
  | none => simp [decode_illegal _ hf] at h
  | some form =>
    rw [decode_form b1 b2 hf, Decoded.ok.injEq] at h
    obtain ⟨rfl, -⟩ := h
    exact ⟨form, rfl, rfl⟩

theorem Operand.bytes_length (o : Operand) : o.bytes.length + 1 = o.mode.length := by
  rcases o with _ | _ | _ | m | _ | _
  case mem => cases m <;> rfl
  all_goals rfl

/-- The length of an encoding is the length of the instruction's mode (30_encoding.md R81). -/
theorem encode_length (i : Instr) : (encode i).length = i.length := by
  rw [encode, List.length_cons, Operand.bytes_length, Instr.operand_mode, Instr.length]

/-- A Running machine runs the instruction that its opcode byte and the two bytes after it, read after the refresh,
decode to (40_execution_engine.md R103, R110). -/
theorem Machine.step_of_decode {s : State} {i : Instr} {rest : List Byte} (hr : s.engine = .running)
    (h : decode [s.read s.pc, s.refreshRandom.read (s.pc + 1), s.refreshRandom.read (s.pc + 2)] = .ok i rest) :
    step s = exec i s.refreshRandom := by
  obtain ⟨form, hf, rfl⟩ := opcodeForm_of_decode h
  exact step_legal hr hf

/-- Settles O3: every instruction is what a row of the opcode table builds (`Instr.eq_build`), its encoding is that
row's opcode byte with the operand bytes of the row's format (`encode_build`), and the decoder reads those
(`decode_operandBytes`). -/
theorem decodeOfEncodeIsTheInstruction : Obligations.DecodeOfEncodeIsTheInstruction := by
  intro i rest
  refine ⟨i.wellFormed_eq_true, ?_⟩
  obtain ⟨form, b1, b2, hf, hi⟩ := i.eq_build
  have he : encode i = i.opcode :: form.operandBytes b1 b2 := by rw [← encode_build hf, hi]
  rw [he, decode_operandBytes hf, hi]

/-- Settles O4: bytes that decode are an opcode byte with the operand bytes of its format (`decode_eq_ok`), and these
are the encoding of the instruction the row builds (`encode_build`). -/
theorem decodedBytesAreTheEncoding : Obligations.DecodedBytesAreTheEncoding := by
  intro bytes i rest h
  have he : bytes = encode i ++ rest := by
    obtain ⟨op, form, b1, b2, hf, rfl, rfl⟩ := decode_eq_ok h
    rw [encode_build hf]
  exact ⟨he, by rw [he, List.length_append, encode_length]⟩

/-- Settles O1: the decoder, run on each of the fourteen words. -/
theorem specWordsDecodeToTheirInstructions : Obligations.SpecWordsDecodeToTheirInstructions :=
  ⟨rfl, rfl, rfl, rfl, rfl, rfl, rfl, rfl, rfl, rfl, rfl, rfl, rfl, rfl⟩

/-- Settles O6: `step_of_decode`, and under `per_load` the refreshed state is the state itself. -/
theorem stepRunsTheDecodedInstruction : Obligations.StepRunsTheDecodedInstruction := by
  refine fun s i rest hr => ⟨step_of_decode hr, fun hload h => ?_⟩
  have he : s.refreshRandom = s := s.refreshRandom_perLoad hload
  rw [step_of_decode hr (by rw [he]; exact h), he]

end Sys2Proof

/-! ### What an instruction changes (10_state.md R20, R25, R36, 41_addressing_modes.md R134): the frame of each -/

namespace Sys2Proof

open Sys2Proof.Machine

namespace Claims

section Frames

variable (s : State)

/-- A register write with `SetZN` changes that register and Z and N alone (00_scope.md R8). -/
theorem regWrite_frame (r : Reg) (v : Byte) : Frame [r] [.N, .Z] [] s ((withReg s r v).setZN v) :=
  ((withReg_frame s r v).1.trans (setZN_frame _ v)).mono (by simp) (by simp) (by simp)

/-- A 16-bit push changes S and two stack cells (00_scope.md R10). -/
theorem push16_frame (w : Addr) : Frame [.S] [] [stackCell s.sp, stackCell (s.sp - 1)] s (s.push16 w) :=
  ((push_frame s (hi8 w)).trans (push_frame _ (lo8 w))).mono (by simp) (by simp) (by simp)

/-- Loading a pulled status byte writes the six flags but B and bit 5 (43_transfer_stack.md R161). -/
theorem loadedStatus_frame (v : Byte) :
    Frame [] [.N, .V, .D, .I, .Z, .C] [] s { s with p := loadedStatus v s.p } := by
  refine ⟨⟨fun q _ => by cases q <;> rfl, fun f hf => ?_, fun _ _ => rfl, rfl, rfl⟩, rfl⟩
  have hf' : f = .B ∨ f = .five := by cases f <;> simp at hf ⊢
  exact (getFlag_loadedStatus v s.p f).trans (if_pos hf')

end Frames

end Claims

namespace Machine

open Sys2Proof.Claims

/-- PLP raises S and loads six flags (43_transfer_stack.md R161). -/
theorem pullP_frame (s : State) : Frame [.S] [.N, .V, .D, .I, .Z, .C] [] s (pullP s) :=
  (popped_frame s).trans (loadedStatus_frame s.popped s.pulled)

/-- RTI raises S by three and loads six flags and PC (47_flag_system.md R233). -/
theorem trapReturn_frame (s : State) : Frame [.S] [.N, .V, .D, .I, .Z, .C] [] s s.trapReturn :=
  ((pullP_frame s).trans ((popped16_frame _).trans (jump_frame _ _))).mono (by simp) (by simp) (by simp)

/-- BRK sets B and pushes three bytes (47_flag_system.md R232); its engine is `State.breakEntry_engine`. -/
theorem breakEntry_unchanged (s : State) :
    Unchanged [.S] [.B] [stackCell s.sp, stackCell (s.sp - 1), stackCell (s.sp - 2)] s s.breakEntry := by
  have hcell : s.sp - 1 - 1 = s.sp - 2 := by bv_omega
  have hf := ((setFlag_frame s .B true).trans (push16_frame _ (s.pc + brkOffset s.cfg.brkPcPushOffset))).trans
    (push_frame _ (statusImage (setFlag s.p .B true)))
  rw [State.push16_sp, State.setFlag_sp, hcell] at hf
  obtain ⟨hu, -⟩ := hf.mono (regs' := [.S]) (flags' := [.B])
    (cells' := [stackCell s.sp, stackCell (s.sp - 1), stackCell (s.sp - 2)]) (by simp) (by simp) (by simp)
  exact hu

/-- The instruction completes, may change only the named registers, flags and cells, and advances PC. -/
def Completes (regs : List Reg) (flags : List Flag) (cells : List Addr) (i : Instr) (s : State) : Prop :=
  ∃ t, exec i s = .next t ∧ Unchanged regs flags cells s t ∧ NextPc i s t

section Shapes

variable {i : Instr} {s : State} {regs : List Reg} {flags : List Flag} {cells : List Addr}

/-- A frame of what a handler does, with the advance after it. -/
theorem Completes.of_frame {u : State} (e : exec i s = .next (u.advance i.length)) (hf : Frame regs flags cells s u)
    (hpc : u.pc = s.pc) : Completes regs flags cells i s := by
  have hadv : Frame regs flags cells s (u.advance i.length) := by simpa using hf.trans (advance_frame u i.length)
  exact ⟨_, e, hadv.1, congrArg (· + _) hpc⟩

theorem HandlesValue.completes {h : Byte → State → State} (hi : HandlesValue h i s)
    (hf : ∀ m, Frame regs flags [] s (h m s)) (hpc : ∀ m, (h m s).pc = s.pc) : Completes regs flags [] i s := by
  obtain ⟨m, -, e⟩ := hi
  exact .of_frame e (hf m) (hpc m)

theorem HandlesImplied.completes {h : State → State} (hi : HandlesImplied h i s) (hf : Frame regs flags cells s (h s))
    (hpc : (h s).pc = s.pc) : Completes regs flags cells i s :=
  .of_frame hi.2 hf hpc

theorem StoresByte.completes {v : Byte} (hi : StoresByte v i s) :
    Completes [] [] (operandAddress s i.operand).toList i s := by
  obtain ⟨ea, hea, e⟩ := hi
  rw [hea]
  exact .of_frame e (write_frame s ea v) rfl

theorem operandAddress_of_acc (h : i.mode = .acc) : operandAddress s i.operand = none := by
  have hm : i.operand.mode = .acc := i.operand_mode.trans h
  rcases ho : i.operand with _ | _ | _ | m | _ | _ <;> rw [ho] at hm
  case accumulator => rfl
  case mem => cases m <;> cases hm
  all_goals cases hm

theorem ModifiesOperand.completes {h : Byte → State → Modified} (hi : ModifiesOperand h i s)
    (hf : ∀ v, Frame [] flags [] s (h v s).state) (hpc : ∀ v, (h v s).state.pc = s.pc) :
    Completes (if i.mode = .acc then [.A] else []) flags (operandAddress s i.operand).toList i s := by
  obtain ⟨hacc, -, e⟩ | ⟨hmem, ea, hea, e⟩ := hi
  · rw [if_pos hacc, operandAddress_of_acc hacc]
    exact .of_frame e (((hf s.a).trans (withReg_frame _ .A _).1).mono (by simp) (by simp) (by simp)) (hpc s.a)
  · rw [if_neg hmem, hea]
    exact .of_frame e (((hf (s.read ea)).trans (write_frame _ ea _)).mono (by simp) (by simp) (by simp))
      (hpc (s.read ea))

theorem BranchesOn.unchanged {cond : State → Bool} (hi : BranchesOn cond i s) :
    ∃ t, exec i s = .next t ∧ Unchanged [] [] [] s t := by
  obtain ⟨d, -, e⟩ := hi
  refine ⟨_, e, ?_⟩
  split
  · exact (jump_frame s _).1
  · exact (advance_frame s 2).1

end Shapes

/-- The mnemonics that set PC themselves: jumps, calls, returns, branches and BRK (10_state.md R25). -/
def setsPc : List Mnemonic :=
  [.jmp, .jsr, .rts, .rti, .brk, .bcc, .bcs, .beq, .bne, .bmi, .bpl, .bvc, .bvs]

/-- What an instruction may change: the registers of R20's column, the flags of R36's table and the cells it stores
to. -/
def ChangesOnlyItsOwn (i : Instr) (s t : State) : Prop :=
  Unchanged (registersWritten i) (flagsWritten i.mnemonic) (storedCells i s) s t

/-- An instruction that does not set PC advances it, and changes only its own. -/
theorem exec_advances {i : Instr} (h : i.mnemonic ∉ setsPc) (s : State) :
    Completes (registersWritten i) (flagsWritten i.mnemonic) (storedCells i s) i s := by
  have hi : Means i.mnemonic i s := exec_means i s
  simp only [registersWritten, flagsWritten, storedCells]
  cases hn : i.mnemonic <;> simp only [hn] at hi h ⊢
  case lda | and | ora | eor => exact HandlesValue.completes hi (fun _ => regWrite_frame s .A _) fun _ => rfl
  case ldx => exact HandlesValue.completes hi (fun _ => regWrite_frame s .X _) fun _ => rfl
  case ldy => exact HandlesValue.completes hi (fun _ => regWrite_frame s .Y _) fun _ => rfl
  case adc | sbc => exact HandlesValue.completes hi (fun _ => addWithCarry_frame _ s) fun _ => rfl
  case cmp | cpx | cpy =>
    exact HandlesValue.completes hi (fun m => (compareWith_frame _ m s).mono (by simp) (by simp) (by simp)) fun _ => rfl
  case bit => exact HandlesValue.completes hi (fun m => bitTest_frame m s) fun _ => rfl
  case sta | stx | sty => exact StoresByte.completes hi
  case inc | dec =>
    obtain ⟨hmode, hi⟩ := hi
    simpa only [if_neg hmode] using
      hi.completes (flags := [.N, .Z]) (fun _ => (setZN_frame s _).mono (by simp) (by simp) (by simp)) fun _ => rfl
  case asl | lsr | rol | ror =>
    exact ModifiesOperand.completes hi (fun _ => (shifted_frame _ s).mono (by simp) (by simp) (by simp)) fun _ => rfl
  case txa | tya => exact HandlesImplied.completes hi (regWrite_frame s .A _) rfl
  case tax | tsx | inx | dex => exact HandlesImplied.completes hi (regWrite_frame s .X _) rfl
  case tay | iny | dey => exact HandlesImplied.completes hi (regWrite_frame s .Y _) rfl
  case txs => exact HandlesImplied.completes hi (transferXS_frame s) rfl
  case pha | php => exact HandlesImplied.completes hi (push_frame s _) rfl
  case pla => exact HandlesImplied.completes hi ((pullA_frame s).mono (by simp) (by simp) (by simp)) rfl
  case plp => exact HandlesImplied.completes hi (pullP_frame s) rfl
  case clc | sec | cli | sei | cld | sed | clv =>
    obtain ⟨-, e⟩ := hi
    exact .of_frame e (setFlag_frame s _ _) rfl
  case nop => exact HandlesImplied.completes hi (advance_frame s 0) rfl
  case jmp | jsr | rts | rti | brk | bcc | bcs | beq | bne | bmi | bpl | bvc | bvs => exact absurd (by decide) h

/-- An instruction that sets PC completes, and changes only its own. -/
theorem exec_setsPc {i : Instr} (h : i.mnemonic ∈ setsPc) (s : State) :
    ∃ t, exec i s = .next t ∧ ChangesOnlyItsOwn i s t := by
  have hi : Means i.mnemonic i s := exec_means i s
  simp only [ChangesOnlyItsOwn, registersWritten, flagsWritten, storedCells]
  cases hn : i.mnemonic <;> simp only [hn] at hi h ⊢
  case jmp =>
    obtain ⟨ea, -, e⟩ := hi
    exact ⟨_, e, (jump_frame s ea).1⟩
  case jsr =>
    obtain ⟨w, -, e⟩ := hi
    exact ⟨_, e, ((push16_frame s _).trans (jump_frame _ w)).1⟩
  case rts => exact ⟨_, hi.2, ((popped16_frame s).trans (jump_frame _ _)).1⟩
  case rti => exact ⟨_, hi.2, (trapReturn_frame s).1⟩
  case brk => exact ⟨_, hi.2, breakEntry_unchanged s⟩
  case bcc | bcs | beq | bne | bmi | bpl | bvc | bvs => exact BranchesOn.unchanged hi
  all_goals exact absurd h (by decide)

/-- Every instruction completes, and changes only its own. -/
theorem exec_changesOnlyItsOwn (i : Instr) (s : State) : ∃ t, exec i s = .next t ∧ ChangesOnlyItsOwn i s t := by
  by_cases h : i.mnemonic ∈ setsPc
  · exact exec_setsPc h s
  · obtain ⟨t, e, hu, -⟩ := exec_advances h s
    exact ⟨t, e, hu⟩

theorem changesOnlyItsOwn_of_exec {i : Instr} {s t : State} (e : exec i s = .next t) : ChangesOnlyItsOwn i s t := by
  obtain ⟨t', e', hu⟩ := exec_changesOnlyItsOwn i s
  cases e.symm.trans e'
  exact hu

end Machine

/-- Settles O27: an instruction completes whether it sets PC (`exec_setsPc`) or advances it (`exec_advances`). -/
theorem everyInstructionCompletes : Obligations.EveryInstructionCompletes := by
  intro i s
  by_cases h : i.mnemonic ∈ setsPc
  · obtain ⟨t, e, -⟩ := exec_setsPc h s
    exact ⟨t, e, fun hn => absurd h hn⟩
  · obtain ⟨t, e, -, hpc⟩ := exec_advances h s
    exact ⟨t, e, fun _ => hpc⟩

/-- Settles O24: the flag write is R30's formula, and the frame of every instruction names the flags of R36's table
(`changesOnlyItsOwn_of_exec`). -/
theorem onlyTheDocumentedFlagsChange : Obligations.OnlyTheDocumentedFlagsChange := by
  refine ⟨fun p f b => ⟨getFlag_setFlag_same p f b, fun g => getFlag_setFlag_ne p b, rfl⟩, fun i s t f e => ?_⟩
  obtain ⟨-, flags, -⟩ := changesOnlyItsOwn_of_exec e
  exact flags f

/-- Settles O26: the cells of the frame of every instruction (`changesOnlyItsOwn_of_exec`). -/
theorem memoryChangesOnlyAtTheStoredCells : Obligations.MemoryChangesOnlyAtTheStoredCells := by
  intro i s t e
  obtain ⟨-, -, cells, -⟩ := changesOnlyItsOwn_of_exec e
  exact cells

/-- Settles O25: the registers of the frame of every instruction (`changesOnlyItsOwn_of_exec`), and the engine
(`exec_keepsEngine`). -/
theorem registersChangeOnlyByTheirWriters : Obligations.RegistersChangeOnlyByTheirWriters := by
  intro i s t e
  obtain ⟨regs, -, -, hcfg, hdraws⟩ := changesOnlyItsOwn_of_exec e
  refine ⟨regs, hcfg, hdraws, fun h => ?_⟩
  obtain ⟨t', e', he⟩ := exec_keepsEngine h s
  cases e.symm.trans e'
  exact he

end Sys2Proof

/-! ### Memory after an instruction (20_memory.md R51, R64): every store of it, and the canonical form -/

namespace Sys2Proof

open Sys2Proof.Machine Sys2Proof.Claims

namespace Machine

/-- Memory with the byte `f c` stored to each cell `c` of a list. -/
def storeBytes (f : Addr → Byte) (m : Memory) (cells : List Addr) : Memory :=
  cells.foldl (fun m c => m.write c (f c)) m

section StoreBytes

variable (f : Addr → Byte) (m : Memory)

@[simp] theorem storeBytes_nil : storeBytes f m [] = m := rfl

@[simp] theorem storeBytes_cons (c : Addr) (cells : List Addr) :
    storeBytes f m (c :: cells) = storeBytes f (m.write c (f c)) cells := rfl

theorem storeBytes_read (cells : List Addr) (c : Addr) :
    (storeBytes f m cells).read c = if c ∈ cells then f c else m.read c := by
  induction cells generalizing m with
  | nil => simp
  | cons d rest ih =>
    rw [storeBytes_cons, ih, Memory.read_write]
    by_cases hd : c = d <;> simp [hd]

theorem storeBytes_wf {m : Memory} (h : m.wf) (cells : List Addr) : (storeBytes f m cells).wf := by
  induction cells generalizing m with
  | nil => exact h
  | cons d rest ih => exact ih (Memory.write_wf h d (f d))

end StoreBytes

/-- The status image does not depend on B (10_state.md R33). -/
theorem statusImage_setFlag_B (p : Byte) (b : Bool) : statusImage (setFlag p .B b) = p ||| 0x30 := by
  refine eq_of_getFlag_eq fun f => ?_
  rw [getFlag_statusImage, show p ||| 0x30 = statusImage p from rfl, getFlag_statusImage]
  by_cases hf : f = .B
  · simp [hf]
  · rw [getFlag_setFlag_ne p b hf]

theorem brkOffset_eq (o : BrkPcPushOffset) : brkOffset o = if o = .two then 2 else 0 := by
  cases o <;> rfl

/-- An instruction stores `storedByte` to each cell of `storedCells`, and nothing else to memory. -/
theorem exec_mem {i : Instr} {s t : State} (e : exec i s = .next t) :
    t.mem = storeBytes (storedByte i s) s.mem (storedCells i s) := by
  have hi : Means i.mnemonic i s := exec_means i s
  cases hn : i.mnemonic <;> rw [hn] at hi <;> simp only [storedCells, hn]
  case lda | ldx | ldy | adc | sbc | cmp | cpx | cpy | and | ora | eor | bit =>
    obtain ⟨m, -, e'⟩ := hi
    cases e.symm.trans e'
    rfl
  case sta | stx | sty =>
    obtain ⟨ea, hea, e'⟩ := hi
    cases e.symm.trans e'
    simp [hea, storedByte, hn]
  case inc | dec =>
    obtain ⟨hmode, ⟨hacc, -⟩ | ⟨-, ea, hea, e'⟩⟩ := hi
    · exact absurd hacc hmode
    · cases e.symm.trans e'
      simp only [hea, Option.toList_some, storeBytes_cons, storedByte, hn]
      rfl
  case asl | lsr | rol | ror =>
    obtain ⟨hacc, -, e'⟩ | ⟨-, ea, hea, e'⟩ := hi
    · cases e.symm.trans e'
      simp only [operandAddress_of_acc hacc]
      rfl
    · cases e.symm.trans e'
      simp only [hea, Option.toList_some, storeBytes_cons, storedByte, hn]
      rfl
  case bcc | bcs | beq | bne | bmi | bpl | bvc | bvs =>
    obtain ⟨d, -, e'⟩ := hi
    cases e.symm.trans e'
    split <;> rfl
  case jmp =>
    obtain ⟨ea, -, e'⟩ := hi
    cases e.symm.trans e'
    rfl
  case tax | tay | txa | tya | tsx | txs | pla | plp | inx | iny | dex | dey | clc | sec | cli | sei | cld | sed | clv |
      nop | rts | rti =>
    obtain ⟨-, e'⟩ := hi
    cases e.symm.trans e'
    rfl
  case pha | php =>
    obtain ⟨-, e'⟩ := hi
    cases e.symm.trans e'
    simp only [storeBytes_cons, storedByte, hn]
    rfl
  case jsr =>
    obtain ⟨w, -, e'⟩ := hi
    cases e.symm.trans e'
    simp only [State.jump_mem, State.push16_mem, storeBytes_cons, storeBytes_nil, storedByte, hn, if_true,
      if_neg (stackCell_ne_one s.sp).symm]
  case brk =>
    obtain ⟨-, e'⟩ := hi
    cases e.symm.trans e'
    have h2 : s.sp - 1 - 1 = s.sp - 2 := by bv_omega
    have hne : stackCell (s.sp - 2) ≠ stackCell (s.sp - 1) := h2 ▸ (stackCell_ne_one (s.sp - 1)).symm
    simp only [State.breakEntry_mem, storeBytes_cons, storeBytes_nil, storedByte, hn, if_true,
      if_neg (stackCell_ne_one s.sp).symm, if_neg (stackCell_ne_two s.sp).symm, if_neg hne, h2, brkOffset_eq,
      statusImage_setFlag_B]

/-- A cell after an instruction: the byte stored to it, else the byte it held (20_memory.md R64). -/
theorem exec_read {i : Instr} {s t : State} (e : exec i s = .next t) (c : Addr) : t.read c = memoryAfter i s c := by
  simp only [State.read, exec_mem e, storeBytes_read, memoryAfter]

/-- An instruction keeps the canonical form of memory. -/
theorem exec_wf {i : Instr} {s t : State} (h : s.mem.wf) (e : exec i s = .next t) : t.mem.wf :=
  exec_mem e ▸ storeBytes_wf _ h _

theorem step_wf {s t : State} (h : s.mem.wf) (hs : step s = .next t) : t.mem.wf := by
  obtain ⟨-, ⟨-, rfl⟩ | ⟨form, -, e⟩⟩ := step_cases hs
  · exact h
  · exact exec_wf (State.refreshRandom_wf h) e

/-! #### The canonical form as data -/

/-- In a list of cells in rising order each cell is the one found at its address. -/
theorem lookupCell_of_mem {m : Memory} (h : m.Pairwise fun c d => c.1 < d.1) {c : Host.Cell} (hc : c ∈ m) :
    lookupCell c.1 m = c.2 := by
  induction m with
  | nil => simp at hc
  | cons d rest ih =>
    obtain ⟨hd, hr⟩ := List.pairwise_cons.1 h
    obtain rfl | hc := List.mem_cons.1 hc
    · simp [lookupCell]
    · rw [lookupCell, if_neg (Nat.ne_of_lt (hd c hc)), ih hr hc]

/-- A byte other than 0x00 is read from a listed cell (20_memory.md R51). -/
theorem mem_of_lookupCell_ne_zero {m : Memory} {k : Nat} (h : lookupCell k m ≠ 0x00) : (k, lookupCell k m) ∈ m := by
  induction m with
  | nil => exact absurd rfl h
  | cons d rest ih =>
    by_cases hd : d.1 = k
    · simp [lookupCell, ← hd]
    · rw [lookupCell, if_neg hd] at h ⊢
      exact List.mem_cons_of_mem _ (ih h)

/-- A canonical memory lists a cell exactly when it is one of the two seeded ones or holds another byte than 0x00. -/
theorem Memory.mem_iff_of_wf {m : Memory} (h : m.wf) (c : Host.Cell) :
    c ∈ m ↔ lookupCell c.1 m = c.2 ∧ c.1 < 0x10000 ∧ (seededCell c.1 = true ∨ c.2 ≠ 0x00) := by
  obtain ⟨hrising, hcells, hrandom, hkey⟩ := h
  constructor
  · exact fun hc => ⟨lookupCell_of_mem hrising hc, hcells c hc⟩
  · rintro ⟨hc, -, hseed | hne⟩
    · have listed : ∃ d ∈ m, d.1 = c.1 := by
        obtain h | h : c.1 = 0x00FE ∨ c.1 = 0x00FF := by simpa [seededCell] using hseed
        · exact h ▸ hrandom
        · exact h ▸ hkey
      obtain ⟨d, hd, hdc⟩ := listed
      have hv : d.2 = c.2 := by rw [← lookupCell_of_mem hrising hd, hdc, hc]
      exact Prod.ext hdc hv ▸ hd
    · have hmem := mem_of_lookupCell_ne_zero (hc ▸ hne)
      rwa [hc] at hmem

/-- Two canonical memories that read alike list the same cells, in the same order. -/
theorem Memory.eq_of_read_eq {m n : Memory} (hm : m.wf) (hn : n.wf) (h : ∀ a : Addr, m.read a = n.read a) : m = n := by
  have hlookup : ∀ k, k < 0x10000 → lookupCell k m = lookupCell k n := fun k hk => by
    simpa [Memory.read, Nat.mod_eq_of_lt hk] using h (BitVec.ofNat 16 k)
  have hmem : ∀ c, c ∈ m ↔ c ∈ n := fun c => by
    rw [mem_iff_of_wf hm, mem_iff_of_wf hn]
    exact ⟨fun ⟨hc, hlt, hs⟩ => ⟨hlookup _ hlt ▸ hc, hlt, hs⟩, fun ⟨hc, hlt, hs⟩ => ⟨hlookup _ hlt ▸ hc, hlt, hs⟩⟩
  have hnodup : ∀ {l : Memory}, l.wf → l.Nodup := fun hl => hl.1.imp fun hlt e => absurd (congrArg Prod.fst e) hlt.ne
  exact ((List.perm_ext_iff_of_nodup (hnodup hm) (hnodup hn)).2 hmem).eq_of_pairwise
    (fun _ _ _ _ hab hba => absurd hab hba.asymm) hm.1 hn.1

end Machine

/-- Settles O11: what an instruction leaves in memory is the memory before with its stores (`exec_mem`), and every
store keeps the canonical form (`storeBytes_wf`). -/
theorem everyMoveKeepsMemoryCanonical : Obligations.EveryMoveKeepsMemoryCanonical :=
  ⟨fun _ _ => step_wf, fun _ _ h => State.write_wf h _ _, load_wf⟩

/-- Settles O12: a canonical memory lists exactly the cells that reads cannot do without (`Memory.mem_iff_of_wf`), in
rising order. -/
theorem canonicalMemoriesThatReadAlikeAreEqual : Obligations.CanonicalMemoriesThatReadAlikeAreEqual :=
  fun _ _ => Memory.eq_of_read_eq

end Sys2Proof

/-! ### Steps and runs (40_execution_engine.md): what every step, every load and every run keeps -/

namespace Sys2Proof

open Sys2Proof.Machine Sys2Proof.Claims

namespace Machine

/-! #### The refresh of 0x00FE -/

section Refresh

variable (s : State)

theorem State.refreshRandom_draws :
    s.refreshRandom.draws = if s.cfg.rndRefresh = .perStep then s.draws + 1 else s.draws := by
  cases h : s.cfg.rndRefresh with
  | perLoad => simp [s.refreshRandom_perLoad h]
  | perStep => simp [s.refreshRandom_perStep h]

/-- What a cell reads after the refresh (40_execution_engine.md R110). -/
theorem State.refreshRandom_read (c : Addr) :
    s.refreshRandom.read c =
      if s.cfg.rndRefresh = .perStep ∧ c = 0x00FE then Config.draw s.draws else s.read c := by
  cases h : s.cfg.rndRefresh with
  | perLoad => simp [s.refreshRandom_perLoad h]
  | perStep =>
    rw [s.refreshRandom_perStep h]
    simp only [true_and]
    exact s.read_write 0x00FE c (Config.draw s.draws)

end Refresh

/-! #### The status invariant -/

theorem five_notMem_flagsWritten (n : Mnemonic) : Flag.five ∉ flagsWritten n := by
  cases n <;> decide

/-- BRK alone writes B (10_state.md R36). -/
theorem eq_brk_of_B_mem_flagsWritten {n : Mnemonic} : Flag.B ∈ flagsWritten n → n = .brk := by
  cases n <;> decide

/-- An instruction keeps the status invariant: BRK sets B and halts, every other instruction leaves
B and the engine (10_state.md R32, R33). -/
theorem exec_statusBitsInv {i : Instr} {s t : State} (h : s.statusBitsInv) (e : exec i s = .next t) :
    t.statusBitsInv := by
  obtain ⟨hB, hfive⟩ := h
  obtain ⟨-, flags, -⟩ := changesOnlyItsOwn_of_exec e
  refine ⟨?_, (flags .five (five_notMem_flagsWritten _)).trans hfive⟩
  by_cases hn : i.mnemonic = .brk
  · cases (exec_means_of hn s).2.symm.trans e
    simp [State.flag]
  · obtain ⟨t', e', he⟩ := exec_keepsEngine hn s
    cases e.symm.trans e'
    rw [flags .B (mt eq_brk_of_B_mem_flagsWritten hn), he]
    exact hB

theorem step_statusBitsInv {s t : State} (h : s.statusBitsInv) (hs : step s = .next t) : t.statusBitsInv := by
  obtain ⟨hr, ⟨-, rfl⟩ | ⟨form, -, e⟩⟩ := step_cases hs
  · obtain ⟨hB, hfive⟩ := h
    refine ⟨?_, hfive⟩
    simpa [hr] using hB
  · have hu : s.refreshRandom.statusBitsInv := by simpa [State.statusBitsInv] using h
    exact exec_statusBitsInv hu e

theorem load_statusBitsInv (origin : Addr) (bytes : List Byte) (s : State) :
    (load origin bytes s).statusBitsInv := by
  simp [State.statusBitsInv, load, State.flag, getFlag]

/-! #### The parameters and the count of draws -/

theorem step_cfg_draws {s t : State} (hs : step s = .next t) : t.cfg = s.cfg ∧
    t.draws = if s.cfg.rndRefresh = .perStep ∧ opcodeForm (s.read s.pc) ≠ none then s.draws + 1 else s.draws := by
  obtain ⟨-, ⟨hf, rfl⟩ | ⟨form, hf, e⟩⟩ := step_cases hs
  · simp [hf]
  · obtain ⟨-, -, -, hcfg, hdraws⟩ := changesOnlyItsOwn_of_exec e
    exact ⟨hcfg.trans s.refreshRandom_cfg, by simp [hdraws, s.refreshRandom_draws, hf]⟩

/-- `t` has the parameters of `s` and no fewer draws taken. -/
def NoEarlier (s t : State) : Prop := t.cfg = s.cfg ∧ s.draws ≤ t.draws

theorem NoEarlier.trans {s t u : State} (h : NoEarlier s t) (h' : NoEarlier t u) : NoEarlier s u :=
  ⟨h'.1.trans h.1, h.2.trans h'.2⟩

theorem step_noEarlier {s t : State} (hs : step s = .next t) : NoEarlier s t := by
  obtain ⟨hcfg, hdraws⟩ := step_cfg_draws hs
  refine ⟨hcfg, ?_⟩
  rw [hdraws]
  split <;> omega

theorem HostAction.apply_noEarlier (action : HostAction) (s : State) : NoEarlier s (action.apply s) := by
  cases action with
  | load origin bytes => exact ⟨rfl, Nat.le_succ _⟩
  | writeKey key => exact ⟨rfl, Nat.le_refl _⟩

theorem HostAction.apply_statusBitsInv (action : HostAction) {s : State} (h : s.statusBitsInv) :
    (action.apply s).statusBitsInv := by
  cases action with
  | load origin bytes => exact load_statusBitsInv origin bytes s
  | writeKey key => exact h

/-! #### The copy of an image (70_reset_and_hazards.md R271) -/

theorem add_ofNat_succ (a : Addr) (k : Nat) : a + BitVec.ofNat 16 (k + 1) = a + 1 + BitVec.ofNat 16 k := by
  bv_omega

/-- A cell that no byte of the image is copied to stays. -/
theorem copyImage_read_of_notMem {m : Memory} {a c : Addr} {bytes : List Byte}
    (h : ∀ k, k < bytes.length → a + BitVec.ofNat 16 k ≠ c) : (copyImage m a bytes).read c = m.read c := by
  induction bytes generalizing m a with
  | nil => rfl
  | cons b rest ih =>
    have hne : c ≠ a := fun e => h 0 (by simp) (by simp [e])
    rw [copyImage, ih fun k hk => add_ofNat_succ a k ▸ h (k + 1) (by simpa using hk), Memory.read_write_ne m b hne]

/-- A cell holds the last byte of the image that is copied to it. -/
theorem copyImage_read_last {m : Memory} {a c : Addr} {bytes : List Byte} {k : Nat} (hk : k < bytes.length)
    (hc : a + BitVec.ofNat 16 k = c) (hlast : ∀ j, k < j → j < bytes.length → a + BitVec.ofNat 16 j ≠ c) :
    (copyImage m a bytes).read c = bytes[k] := by
  induction bytes generalizing m a k with
  | nil => simp at hk
  | cons b rest ih =>
    have later : ∀ j, k < j + 1 → j < rest.length → a + 1 + BitVec.ofNat 16 j ≠ c := fun j hj hl =>
      add_ofNat_succ a j ▸ hlast (j + 1) hj (by simpa using hl)
    cases k with
    | zero =>
      obtain rfl : a = c := by simpa using hc
      rw [copyImage, copyImage_read_of_notMem fun j hl => later j (Nat.succ_pos j) hl]
      exact Memory.read_write_same m a b
    | succ k =>
      exact ih (by simpa using hk) (add_ofNat_succ a k ▸ hc) fun j hj => later j (Nat.succ_lt_succ hj)

/-- A cell of a loaded machine but the two seeded ones reads as the image leaves it. -/
theorem load_read (origin : Addr) (bytes : List Byte) (s : State) {c : Addr} (h1 : c ≠ 0x00FE) (h2 : c ≠ 0x00FF) :
    (load origin bytes s).read c = (copyImage Memory.zeroed origin bytes).read c := by
  rw [State.read, load_mem, Memory.read_write_ne _ _ h2, Memory.read_write_ne _ _ h1]

theorem zeroed_read (c : Addr) : Memory.zeroed.read c = 0x00 := by
  simp [Memory.zeroed, Memory.read, lookupCell]

/-! #### Runs -/

theorem step_running {s : State} (hr : s.engine = .running) : ∃ t, step s = .next t := by
  cases hf : opcodeForm (s.read s.pc) with
  | none => exact ⟨_, step_illegal hr hf⟩
  | some form =>
    obtain ⟨t, e, -⟩ := step_legal_engine hr hf
    exact ⟨t, e⟩

/-- A run of `m + n` steps is a run of `n` steps from the end of a run of `m`. -/
theorem runState_add (m n : Nat) (obs : Observer) (s : State) :
    runState (m + n) obs s = runState n (obs.after m) (runState m obs s) := by
  induction m generalizing obs s with
  | zero => simp
  | succ m ih =>
    by_cases hr : s.engine = .running
    · obtain ⟨t, hs⟩ := step_running hr
      rw [Nat.add_right_comm, runState_succ hs, runState_succ hs, ih, Observer.after_after, Nat.add_comm]
    · rw [runState_stopped hr, runState_stopped hr, runState_stopped hr]

theorem runResult_halted_iff {e : Engine} : runResult e = .halted ↔ e = .halted := by
  cases e <;> simp [runResult]

theorem runResult_faulted_iff {e : Engine} {r : FaultReason} : runResult e = .faulted r ↔ e = .faulted r := by
  cases e <;> simp [runResult]

theorem runResult_exhausted_iff {e : Engine} : runResult e = .stepBudgetExhausted ↔ e = .running := by
  cases e <;> simp [runResult]

end Machine

/-- Settles O13: BRK, which sets B, is the instruction that halts, and no instruction writes bit 5
(`exec_statusBitsInv`); the fault raised on an illegal opcode leaves P (`step_statusBitsInv`). -/
theorem everyStepKeepsBreakAndBitFive : Obligations.EveryStepKeepsBreakAndBitFive :=
  fun _ _ => step_statusBitsInv

/-- Settles O14: memory and P of a loaded machine (`load_wf`, `load_statusBitsInv`); reset is such a machine in all but
its memory. -/
theorem resetAndLoadMeetTheInvariants : Obligations.ResetAndLoadMeetTheInvariants :=
  ⟨Memory.reset_wf, load_statusBitsInv 0 [] State.reset,
    fun origin bytes s => ⟨load_wf origin bytes s, load_statusBitsInv origin bytes s⟩⟩

/-- Settles O15: no instruction changes the two fields, and the refresh counts its draw (`step_cfg_draws`). -/
theorem stepsKeepTheParametersAndCountDraws : Obligations.StepsKeepTheParametersAndCountDraws :=
  fun _ _ => step_cfg_draws

/-- Settles O16: the two seeds are written last; every other cell holds what the copy of the image leaves there
(`copyImage_read_of_notMem`, `copyImage_read_last`). -/
theorem loadGivesTheResetValues : Obligations.LoadGivesTheResetValues := by
  intro origin bytes s
  refine ⟨rfl, rfl, rfl, rfl, rfl, rfl, rfl, ?random, Memory.read_write_same _ _ _, fun c h1 h2 hc => ?uncovered,
    fun c k hk h1 h2 hc hlast => ?covered, fun s' hcfg hdraws => ?same⟩
  case random =>
    have hne : (0x00FE : Addr) ≠ 0x00FF := by decide
    exact (Memory.read_write_ne _ _ hne).trans (Memory.read_write_same _ _ _)
  case uncovered => rw [load_read origin bytes s h1 h2, copyImage_read_of_notMem hc, zeroed_read]
  case covered => rw [load_read origin bytes s h1 h2, copyImage_read_last hk hc hlast]
  case same => simp only [load, hcfg, hdraws]

/-- Settles O17: memory after the load of an empty image is `Memory.zeroed` with the two seeds. -/
theorem resetIsTheLoadOfAnEmptyImage : Obligations.ResetIsTheLoadOfAnEmptyImage := by
  have hload : ∀ s : State, s.cfg = Config.standard → s.draws = 0 → load 0x0600 [] s = State.reset := by
    intro s hcfg hdraws
    simp only [load, hcfg, hdraws]
    rfl
  refine ⟨hload, fun c h1 h2 => ?_, rfl, rfl, rfl, rfl, rfl, rfl, rfl⟩
  rw [← hload { State.reset with draws := 0 } rfl rfl, load_read _ _ _ h1 h2]
  exact zeroed_read c

/-- Settles O18: the key write is a write (`write_frame`). -/
theorem hostKeyWriteChangesOneCell : Obligations.HostKeyWriteChangesOneCell :=
  fun s key => ⟨s.read_write_same 0x00FF key, write_frame s 0x00FF key, rfl, rfl⟩

/-- Settles O7: the refresh is a write of the draw with its count (`State.refreshRandom_read`,
`State.refreshRandom_draws`), and a step runs what the bytes after it build (`step_legal`). -/
theorem refreshHappensAfterDecodeAndBeforeOperands : Obligations.RefreshHappensAfterDecodeAndBeforeOperands := by
  refine ⟨fun s => s.refreshRandom_perLoad, fun s h => ⟨?random, ?draws, fun c hc => ?others, ?fields⟩,
    fun s form => step_legal, fun s hr hf => ⟨_, step_illegal hr hf, rfl, rfl⟩⟩
  case random => simp [s.refreshRandom_read, h]
  case draws => simp [s.refreshRandom_draws, h]
  case others => exact (s.refreshRandom_read c).trans (if_neg fun h => hc h.2)
  case fields => simp [s.refreshRandom_perStep h]

/-- Settles O8: the step raises the fault (`step_illegal`), which changes the engine alone. -/
theorem unknownOpcodeFaultsPrecisely : Obligations.UnknownOpcodeFaultsPrecisely :=
  fun _ hr hf => ⟨_, step_illegal hr hf, rfl, rfl, fun _ => rfl, observe_none (.inr hf), rfl⟩

/-- Settles O9: outside Running `step`, `observe` and `stepCycles` do not fetch. -/
theorem noStepOutsideRunning : Obligations.NoStepOutsideRunning := by
  intro s
  refine ⟨fun h => by simp only [step, h], fun r h => by simp only [step, h], fun h => ⟨fun t ht => ?_,
    observe_none (.inl h), ?_⟩⟩
  · exact h (step_cases ht).1
  · cases he : s.engine with
    | running => exact absurd he h
    | halted | faulted _ => simp only [stepCycles, he]

/-- Settles O19: runs compose by induction on the first one (`runState_add`), and the result is a function of the
engine at the end. -/
theorem runsCompose : Obligations.RunsCompose :=
  ⟨runState_add,
    fun _ _ _ => ⟨rfl, runResult_halted_iff, fun _ => runResult_faulted_iff, runResult_exhausted_iff⟩,
    fun _ _ => rfl, fun n obs _ h => runState_stopped h n obs, fun n s t h => by
      rw [runState_succ h, Observer.silent_respond, Observer.silent_after]⟩

/-- Settles O57: what every step and every host action keep, every run keeps (`runState_keeps`). -/
theorem runsWithAnyObserverKeepTheInvariants : Obligations.RunsWithAnyObserverKeepTheInvariants := by
  rintro n obs s _ rfl
  refine ⟨fun h => ?memory, fun h => ?status, ?later⟩
  case memory => exact runState_keeps (fun _ _ => step_wf) (fun action _ => action.apply_wf) n obs h
  case status =>
    exact runState_keeps (fun _ _ => step_statusBitsInv) (fun action _ => action.apply_statusBitsInv) n obs h
  case later =>
    exact runState_keeps (Inv := NoEarlier s) (fun _ _ h hs => h.trans (step_noEarlier hs))
      (fun action u h => h.trans (action.apply_noEarlier u)) n obs ⟨rfl, Nat.le_refl _⟩

end Sys2Proof

/-! ### Stack, status and control flow (43_transfer_stack.md, 46_control_flow.md, 47_flag_system.md) -/

namespace Sys2Proof

open Sys2Proof.Machine Sys2Proof.Claims

namespace Machine

/-! #### Pushes in a row -/

theorem sub_ofNat_succ (sp : Byte) (n : Nat) : sp - BitVec.ofNat 8 n - 1 = sp - BitVec.ofNat 8 (n + 1) := by
  bv_omega

/-- Up to 256 pushes go to as many stack cells. -/
theorem sub_ofNat_ne {sp : Byte} {k n : Nat} (hk : k < n) (hn : n < 256) :
    sp - BitVec.ofNat 8 k ≠ sp - BitVec.ofNat 8 n := by
  bv_omega

section Pushes

variable (f : Nat → Byte) (s : State)

theorem pushes_sp (n : Nat) : (pushes f n s).sp = s.sp - BitVec.ofNat 8 n := by
  induction n with
  | zero => simp [pushes]
  | succ n ih => rw [pushes, State.push_sp, ih, sub_ofNat_succ]

/-- As long as S has not come round to a cell again, it holds the byte pushed to it (10_state.md R22, R23). -/
theorem pushes_read {n k : Nat} (hn : n ≤ 256) (hk : k < n) :
    (pushes f n s).read (stackCell (s.sp - BitVec.ofNat 8 k)) = f k := by
  induction n with
  | zero => omega
  | succ n ih =>
    rw [pushes, State.push_read, pushes_sp]
    obtain rfl | hlt : k = n ∨ k < n := by omega
    · exact if_pos rfl
    · have hne := mt (stackCell_inj _ _).1 (sub_ofNat_ne (sp := s.sp) hlt (by omega))
      rw [if_neg hne, ih (by omega) hlt]

end Pushes

/-! #### The status byte on the stack -/

/-- A pushed status image, loaded again, gives the six flags back; B and bit 5 are those of the loading machine
(43_transfer_stack.md R159, R161, decisions D10 and D11). -/
theorem getFlag_loadedStatus_statusImage (p q : Byte) (f : Flag) :
    getFlag (loadedStatus (statusImage p) q) f = if f = .B ∨ f = .five then getFlag q f else getFlag p f := by
  rw [getFlag_loadedStatus, getFlag_statusImage]
  cases f <;> simp

/-- A pushed status image, loaded into a status byte with the same bits 5 and 4, gives the byte back. -/
theorem loadedStatus_statusImage {p q : Byte} (hB : getFlag q .B = getFlag p .B)
    (hfive : getFlag q .five = getFlag p .five) : loadedStatus (statusImage p) q = p := by
  refine eq_of_getFlag_eq fun f => ?_
  rw [getFlag_loadedStatus_statusImage]
  split
  · next h => obtain rfl | rfl := h <;> assumption
  · rfl

variable (s : State)

/-! #### S and PC through the four stack instructions of one byte -/

@[simp] theorem pushA_sp : (pushA s).sp = s.sp - 1 := rfl
@[simp] theorem pushP_sp : (pushP s).sp = s.sp - 1 := rfl
@[simp] theorem pullA_sp : (pullA s).sp = s.sp + 1 := rfl
@[simp] theorem pullP_sp : (pullP s).sp = s.sp + 1 := rfl
@[simp] theorem pushA_pc : (pushA s).pc = s.pc := rfl
@[simp] theorem pushP_pc : (pushP s).pc = s.pc := rfl
@[simp] theorem pullA_pc : (pullA s).pc = s.pc := rfl
@[simp] theorem pullP_pc : (pullP s).pc = s.pc := rfl
@[simp] theorem pushP_a : (pushP s).a = s.a := rfl
@[simp] theorem pullP_a : (pullP s).a = s.a := rfl
@[simp] theorem pullA_a : (pullA s).a = s.pulled := rfl

theorem exec_php : exec .php s = .next ((pushP s).advance 1) := (exec_means .php s).2

theorem exec_plp : exec .plp s = .next ((pullP s).advance 1) := (exec_means .plp s).2

theorem exec_brk : exec .brk s = .next s.breakEntry := (exec_means .brk s).2

theorem exec_rti : exec .rti s = .next s.trapReturn := (exec_means .rti s).2

/-- A pull right after PHA and PLA takes what it would have taken before them (10_state.md R23). -/
theorem pulled_after_pushA_pullA : ((pullA ((pushA s).advance 1)).advance 1).pulled = s.pulled := by
  have hsp : s.sp - 1 + 1 = s.sp := by bv_omega
  have hne : s.sp + 1 ≠ s.sp := by bv_omega
  calc ((pullA ((pushA s).advance 1)).advance 1).pulled
    _ = (s.push s.a).read (stackCell (s.sp - 1 + 1 + 1)) := rfl
    _ = s.pulled := by rw [hsp, State.push_read, if_neg (mt (stackCell_inj _ _).1 hne), State.pulled]

theorem pushA_pullA_flag {f : Flag} (hf : f ∉ [Flag.Z, .N]) :
    ((pullA ((pushA s).advance 1)).advance 1).flag f = s.flag f := by
  rw [State.advance_flag, pullA_eq, setZN_flag_of_notMem _ _ hf]
  rfl

/-- PLP right after PHP finds the image that PHP pushed. -/
theorem pulled_after_pushP : ((pushP s).advance 1).pulled = statusImage s.p :=
  (s.pulled_push (statusImage s.p)).1

/-! #### The record of BRK -/

theorem State.breakEntry_sp_eq : s.breakEntry.sp = s.sp - 3 := by
  rw [State.breakEntry_sp]
  bv_omega

theorem State.trapReturn_sp_eq : s.trapReturn.sp = s.sp + 3 := by
  rw [State.trapReturn_sp]
  bv_omega

/-- RTI takes PC from the second and the third stack cell above S (47_flag_system.md R233, decision D9). -/
theorem State.trapReturn_pc_eq :
    s.trapReturn.pc = word16 (s.read (stackCell (s.sp + 3))) (s.read (stackCell (s.sp + 2))) := by
  have h3 : s.sp + 1 + 1 + 1 = s.sp + 3 := by bv_omega
  have h2 : s.sp + 1 + 1 = s.sp + 2 := by bv_omega
  rw [← h3, ← h2]
  rfl

/-- The three cells of BRK's record, from the highest down (60_exceptions.md R248). -/
theorem State.breakEntry_record :
    s.breakEntry.read (stackCell s.sp) = hi8 (s.pc + brkOffset s.cfg.brkPcPushOffset) ∧
    s.breakEntry.read (stackCell (s.sp - 1)) = lo8 (s.pc + brkOffset s.cfg.brkPcPushOffset) ∧
    s.breakEntry.read (stackCell (s.sp - 2)) = statusImage s.breakEntry.p := by
  have h2 : s.sp - 1 - 1 = s.sp - 2 := by bv_omega
  have hne : stackCell (s.sp - 1) ≠ stackCell (s.sp - 2) := h2 ▸ stackCell_ne_one (s.sp - 1)
  refine ⟨?_, ?_, ?_⟩ <;> rw [State.breakEntry_read]
  · rw [if_neg (stackCell_ne_two s.sp), if_neg (stackCell_ne_one s.sp), if_pos rfl]
  · rw [if_neg hne, if_pos rfl]
  · rw [if_pos rfl]

end Machine

/-- Settles O32: PHP is a push of the image (`push_frame`), PLP a pull that loads six flags (`pullP_frame`,
`getFlag_loadedStatus`). -/
theorem phpPushesTheImageAndPlpLoadsSixFlags : Obligations.PhpPushesTheImageAndPlpLoadsSixFlags := by
  refine fun s => ⟨⟨_, exec_php s, ?cell, rfl, rfl, rfl, ?phpFrame⟩,
    ⟨_, exec_plp s, rfl, ?flags, rfl, (pullP_frame s).trans (advance_frame _ 1)⟩⟩
  case cell => exact s.read_write_same (stackCell s.sp) (statusImage s.p)
  case phpFrame => exact (push_frame s (statusImage s.p)).trans (advance_frame _ 1)
  case flags =>
    rintro _ rfl
    exact ⟨rfl, fun f hB hfive => (getFlag_loadedStatus _ s.p f).trans (if_neg (by simp [hB, hfive]))⟩

/-- Settles O33: the pushes of a round go to 256 different cells (`pushes_read`), and a 16-bit pull takes what a 16-bit
push left (`pulled16_after_push16`). -/
theorem pushesWrapAfterTwoHundredFiftySix : Obligations.PushesWrapAfterTwoHundredFiftySix := by
  refine fun s => ⟨fun f => pushes_sp f s, fun f => ⟨?round, fun k => pushes_read f s (Nat.le_refl _)⟩, s.pulled_push,
    fun w => ⟨?high, ?low, ?pulled, popped16_sp_after_push16 rfl⟩⟩
  case round => simpa using pushes_sp f s 256
  case high => exact (s.push16_read w _).trans ((if_neg (stackCell_ne_one s.sp)).trans (if_pos rfl))
  case low => exact (s.push16_read w _).trans (if_pos rfl)
  case pulled => exact pulled16_after_push16 (s := s) rfl rfl rfl

/-- Settles O34: a pushed status image, loaded into a status byte with the same bits 5 and 4, gives P back
(`loadedStatus_statusImage`), also when PHA and PLA stand in between (`pulled_after_pushA_pullA`). -/
theorem pushThenPullRestores : Obligations.PushThenPullRestores := by
  refine fun s => ⟨⟨_, _, exec_php s, exec_plp _, ?p, ?sp, ?a, ?pc⟩,
    ⟨_, _, _, _, exec_php s, exec_pha _, exec_pla _, exec_plp _, ?nestedP, ?nestedA, ?nestedSp, ?nestedPc⟩⟩
  case p =>
    rw [State.advance_p, pullP, pulled_after_pushP]
    exact loadedStatus_statusImage rfl rfl
  case nestedP =>
    rw [State.advance_p, pullP, pulled_after_pushA_pullA, pulled_after_pushP]
    exact loadedStatus_statusImage (pushA_pullA_flag ((pushP s).advance 1) (f := .B) (by decide))
      (pushA_pullA_flag ((pushP s).advance 1) (f := .five) (by decide))
  case a => simp
  case nestedA => simp [pulled_after_pushA]
  case sp | nestedSp => simp
  case pc | nestedPc => simp [BitVec.add_assoc]

/-- Settles O45: both forms are jumps (`jump_frame`), and the two addresses of the pointer's high byte are one unless
its low byte is 0xFF (`word16_succ`). -/
theorem jmpSetsPcAndNothingElse : Obligations.JmpSetsPcAndNothingElse := by
  refine fun s w => ⟨⟨_, rfl, rfl, jump_frame s w⟩,
    ⟨_, rfl, jump_frame s _, fun h => ?wrap, fun h => ?next, fun h => ?same⟩⟩
  case wrap | next => simp [indirectTarget, pointerHighAddress, h]
  case same => simp only [State.jump_pc, indirectTarget, pointerHighAddress, word16_succ h, ite_self]

/-- Settles O46: JSR is a 16-bit push (`push16_frame`, `State.push16_read`) and a jump. -/
theorem jsrPushesItsLastByteAddress : Obligations.JsrPushesItsLastByteAddress := by
  refine fun s w => ⟨_, exec_jsr s w, rfl, ?sp, ?high, ?low, (push16_frame s _).trans (jump_frame _ w)⟩
  case sp =>
    rw [State.jump_sp, State.push16_sp]
    bv_omega
  case high =>
    rw [State.jump_read, State.push16_read]
    exact (if_neg (stackCell_ne_one s.sp)).trans (if_pos rfl)
  case low =>
    rw [State.jump_read, State.push16_read]
    exact if_pos rfl

/-- Settles O51: the record of the trap entry, cell by cell (`State.breakEntry_record`), and its frame
(`breakEntry_unchanged`). -/
theorem brkPushesItsRecordAndHalts : Obligations.BrkPushesItsRecordAndHalts := by
  intro s
  obtain ⟨hhi, hlo, hstatus⟩ := s.breakEntry_record
  refine ⟨_, exec_brk s, s.breakEntry_engine, s.breakEntry_pc, ?B, s.breakEntry_sp_eq, ?pushed, hstatus,
    breakEntry_unchanged s⟩
  case B =>
    rw [State.flag, State.breakEntry_p]
    exact getFlag_setFlag_same s.p .B true
  case pushed =>
    rintro _ rfl
    rw [← brkOffset_eq]
    exact ⟨hhi, hlo⟩

/-- Settles O52: the trap return's frame (`trapReturn_frame`), and the cells it takes PC from
(`State.trapReturn_pc_eq`). -/
theorem rtiRestoresStatusAndPc : Obligations.RtiRestoresStatusAndPc :=
  fun s => ⟨_, exec_rti s, rfl, s.trapReturn_pc_eq, s.trapReturn_sp_eq, trapReturn_frame s⟩

/-- Settles O53: the three cells above the S that BRK leaves hold its record (`State.breakEntry_record`), which is what
the trap return reads there (`State.trapReturn_pc_eq`, `getFlag_loadedStatus_statusImage`). -/
theorem rtiPullsTheRecordOfBrk : Obligations.RtiPullsTheRecordOfBrk := by
  intro s t u e hsp hcells
  cases (exec_brk s).symm.trans e
  obtain ⟨hhi, hlo, hstatus⟩ := s.breakEntry_record
  have husp : u.sp = s.sp - 3 := hsp.trans s.breakEntry_sp_eq
  have hsp1 : u.sp + 1 = s.sp - 2 := by rw [husp]; bv_omega
  have hsp2 : u.sp + 2 = s.sp - 1 := by rw [husp]; bv_omega
  have hsp3 : u.sp + 3 = s.sp := by rw [husp]; bv_omega
  have hp : u.trapReturn.p = loadedStatus (statusImage s.breakEntry.p) u.p := by
    rw [State.trapReturn_p, State.pulled, hsp1, ← hstatus]
    exact congrArg (loadedStatus · u.p) (hcells _ (by simp [stackCell]))
  refine ⟨_, exec_rti u, u.trapReturn_sp_eq.trans hsp3, ?pc, fun f hB hfive => ?six, fun f hf => ?two⟩
  case pc =>
    rw [State.trapReturn_pc_eq, hsp2, hsp3, ← brkOffset_eq, ← word16_hi8_lo8 (s.pc + _), ← hhi, ← hlo]
    exact congrArg₂ word16 (hcells _ (by simp [stackCell])) (hcells _ (by simp [stackCell]))
  case six =>
    rw [State.flag, hp, getFlag_loadedStatus_statusImage, if_neg (by simp [hB, hfive])]
    exact getFlag_setFlag_ne s.p true hB
  case two => rw [State.flag, hp, getFlag_loadedStatus_statusImage, if_pos hf, State.flag]

end Sys2Proof

/-! ### SBC, and what C and V mean (44_arithmetic.md R166, R177) -/

namespace Sys2Proof

open Sys2Proof.Machine Sys2Proof.Claims

namespace Machine

/-! #### Signed bytes -/

theorem and_0x80_ne_zero_iff (v : Byte) : v &&& 0x80 ≠ 0 ↔ v.getLsbD 7 = true := by
  revert v
  decide

/-- Bit 7 of a byte is its sign. -/
theorem getLsbD_seven_eq (v : Byte) : v.getLsbD 7 = decide (128 ≤ v.toNat) :=
  (BitVec.msb_eq_getLsbD_last v).symm.trans (BitVec.msb_eq_decide v)

theorem signed_complement (v : Byte) : signed (~~~ v) = -signed v - 1 := by
  have := v.isLt
  simp only [signed, BitVec.toNat_not]
  split <;> split <;> omega

/-! #### ADC's formulas as numbers -/

section Sum

variable (a m : Byte) (c : Bool)

theorem adcResult_toNat : (adcResult a m c).toNat = (a.toNat + m.toNat + (if c then 1 else 0)) % 256 := by
  rw [adcResult, adcSum_eq, BitVec.toNat_ofNat]

theorem adcCarry_iff : adcCarry a m c = true ↔ 256 ≤ a.toNat + m.toNat + (if c then 1 else 0) := by
  rw [adcCarry, adcSum_eq, decide_eq_true_iff]
  omega

/-- V is the overflow of the signed sum (44_arithmetic.md R177). -/
theorem adcOverflow_iff : adcOverflow a m c = true ↔
    signed a + signed m + (if c then 1 else 0) < -128 ∨ signed a + signed m + (if c then 1 else 0) > 127 := by
  have ha := a.isLt
  have hm := m.isLt
  have hr := adcResult_toNat a m c
  have hbits : (~~~ (a ^^^ m) &&& (a ^^^ adcResult a m c)).getLsbD 7 = true ↔
      (128 ≤ a.toNat ↔ 128 ≤ m.toNat) ∧ ¬(128 ≤ a.toNat ↔ 128 ≤ (adcResult a m c).toNat) := by
    rw [BitVec.getLsbD_and, BitVec.getLsbD_not, BitVec.getLsbD_xor, BitVec.getLsbD_xor]
    simp only [getLsbD_seven_eq]
    simp [decide_eq_decide]
  rw [adcOverflow, bne_iff_ne, and_0x80_ne_zero_iff, hbits]
  simp only [signed]
  cases c with
  | false | true =>
    simp only [if_true, Bool.false_eq_true, if_false] at hr ⊢
    split <;> split <;> omega

/-! #### SBC's formulas: those of ADC on the complement (44_arithmetic.md R166) -/

theorem adcResult_complement : adcResult a (~~~ m) c = a - m - (if c then 0 else 1) := by
  apply BitVec.eq_of_toNat_eq
  rw [adcResult_toNat, BitVec.toNat_not]
  cases c with
  | false | true =>
    simp only [if_true, Bool.false_eq_true, if_false]
    bv_omega

theorem adcCarry_complement_iff : adcCarry a (~~~ m) c = true ↔ m.toNat + (if c then 0 else 1) ≤ a.toNat := by
  have hm := m.isLt
  rw [adcCarry_iff, BitVec.toNat_not]
  cases c with
  | false | true =>
    simp only [if_true, Bool.false_eq_true, if_false]
    omega

theorem not_xor_not : ~~~ (a ^^^ ~~~ m) = a ^^^ m := by
  ext k hk
  simp

end Sum

/-- A `value` handler runs on the operand value. -/
theorem HandlesValue.exec_eq {h : Byte → State → State} {i : Instr} {s : State} {m : Byte} (hi : HandlesValue h i s)
    (hm : operandValue s i.operand = some m) : exec i s = .next ((h m s).advance i.length) := by
  obtain ⟨m', hm', e⟩ := hi
  cases hm.symm.trans hm'
  exact e

/-- A, C and V after ADC's handler and the advance, as numbers (44_arithmetic.md R177). -/
theorem addWithCarry_numbers (m : Byte) (s : State) (n : Nat) {t : State} {c : Int}
    (ht : t = (addWithCarry m s).advance n) (hc : c = if s.flag .C then 1 else 0) :
    (t.a.toNat : Int) = ((s.a.toNat : Int) + m.toNat + c) % 256 ∧
    (t.flag .C = true ↔ (s.a.toNat : Int) + m.toNat + c ≥ 256) ∧
    (t.flag .V = true ↔ signed s.a + signed m + c < -128 ∨ signed s.a + signed m + c > 127) := by
  subst ht hc
  rw [State.advance_flag, State.advance_flag, State.advance_a, addWithCarry_a, addWithCarry_flag_C,
    addWithCarry_flag_V, adcResult_toNat, adcCarry_iff, adcOverflow_iff]
  refine ⟨?_, ?_, Iff.rfl⟩ <;> cases s.flag .C <;> simp <;> omega

end Machine

/-- Settles O36: SBC is ADC on the complement of the operand, whose result and carry are those of the subtraction with
borrow (`adcResult_complement`, `adcCarry_complement_iff`). -/
theorem sbcSubtractsWithBorrow : Obligations.SbcSubtractsWithBorrow := by
  refine ⟨Claims.hasEncodings _, fun i s h => ?_⟩
  obtain ⟨m, hm, e⟩ := exec_means_of h s
  obtain ⟨hsum, hoverflow⟩ := addWithCarry_result (~~~ m) s
  refine ⟨m, _, hm, e, hsum, adcResult_complement s.a m (s.flag .C), ?borrow, hoverflow, ?overflow,
    addWithCarry_hasZN (~~~ m) s, congrArg (· + _) (addWithCarry_pc (~~~ m) s),
    (addWithCarry_frame (~~~ m) s).trans (Claims.advance_frame _ _)⟩
  case borrow =>
    rw [State.advance_flag, subtractWithBorrow, addWithCarry_flag_C]
    exact adcCarry_complement_iff s.a m (s.flag .C)
  case overflow => rw [← not_xor_not s.a m]; exact hoverflow

/-- Settles O37: the numbers after ADC's handler (`addWithCarry_numbers`), on the operand for ADC and on its complement,
which is 255 − m unsigned and −m − 1 signed, for SBC. -/
theorem carryAndOverflowMeanUnsignedAndSigned : Obligations.CarryAndOverflowMeanUnsignedAndSigned := by
  refine fun i s t m c hm e hc => ⟨fun h => ?adc, fun h => ?sbc⟩
  case adc =>
    have ht : t = (addWithCarry m s).advance i.length :=
      Host.Outcome.next.inj (e.symm.trans (HandlesValue.exec_eq (exec_means_of h s) hm))
    exact addWithCarry_numbers m s i.length ht hc
  case sbc =>
    have ht : t = (addWithCarry (~~~ m) s).advance i.length :=
      Host.Outcome.next.inj (e.symm.trans (HandlesValue.exec_eq (h := subtractWithBorrow) (exec_means_of h s) hm))
    have hlt := m.isLt
    obtain ⟨ha, hcarry, hoverflow⟩ := addWithCarry_numbers (~~~ m) s i.length ht hc
    rw [BitVec.toNat_not] at ha hcarry
    rw [signed_complement] at hoverflow
    rw [ha, hcarry, hoverflow]
    refine ⟨?_, ?_, ?_⟩ <;> omega

end Sys2Proof

/-! ### The outputs of a step (40_execution_engine.md R104, 41_addressing_modes.md R130 to R135, 70_reset_and_hazards.md
R281) -/

namespace Sys2Proof

open Sys2Proof.Machine Sys2Proof.Claims

/-! #### Which operands an access kind has (41_addressing_modes.md R134) -/

/-- The access kinds whose handlers may have an operand of this shape. -/
def Operand.kinds : Operand → List AccessKind
  | .implied => [.none]
  | .accumulator => [.rmw]
  | .immediate _ => [.value]
  | .mem _ => [.value, .address, .rmw]
  | .indirect _ => [.address]
  | .relative _ => [.branch]

theorem Operand.mem_kinds_of_modeFitsKind {k : AccessKind} {o : Operand} (h : modeFitsKind k o.mode = true) :
    k ∈ o.kinds := by
  cases o with
  | mem m => cases m <;> cases k <;> simp_all [modeFitsKind, Operand.mode, Operand.kinds]
  | implied | accumulator | immediate _ | indirect _ | relative _ =>
    cases k <;> simp_all [modeFitsKind, Operand.mode, Operand.kinds]

/-- The operand of every instruction is one that its access kind may have. -/
theorem Instr.kind_mem_kinds (i : Instr) : i.mnemonic.kind ∈ i.operand.kinds := by
  obtain ⟨h, -⟩ := Bool.and_eq_true_iff.1 i.wellFormed_eq_true
  refine Operand.mem_kinds_of_modeFitsKind ?_
  rw [i.operand_mode]
  exact h

section OperandsOfAKind

variable {i : Instr}

theorem Instr.operand_of_value (h : i.mnemonic.kind = .value) :
    (∃ v, i.operand = .immediate v) ∨ ∃ o, i.operand = .mem o := by
  have hk := i.kind_mem_kinds
  rw [h] at hk
  cases ho : i.operand <;> simp_all [Operand.kinds]

theorem Instr.operand_of_address (h : i.mnemonic.kind = .address) :
    (∃ o, i.operand = .mem o) ∨ ∃ w, i.operand = .indirect w := by
  have hk := i.kind_mem_kinds
  rw [h] at hk
  cases ho : i.operand <;> simp_all [Operand.kinds]

theorem Instr.operand_of_rmw (h : i.mnemonic.kind = .rmw) :
    i.operand = .accumulator ∨ ∃ o, i.operand = .mem o := by
  have hk := i.kind_mem_kinds
  rw [h] at hk
  cases ho : i.operand <;> simp_all [Operand.kinds]

theorem Instr.operand_of_branch (h : i.mnemonic.kind = .branch) : ∃ d, i.operand = .relative d := by
  have hk := i.kind_mem_kinds
  rw [h] at hk
  cases ho : i.operand <;> simp_all [Operand.kinds]

theorem Instr.operand_of_imp_or_acc (h : i.mode = .imp ∨ i.mode = .acc) :
    i.operand = .implied ∨ i.operand = .accumulator := by
  rw [← i.operand_mode] at h
  cases ho : i.operand with
  | implied | accumulator => simp
  | mem m => cases m <;> simp [ho, Operand.mode] at h
  | immediate _ | indirect _ | relative _ => simp [ho, Operand.mode] at h

end OperandsOfAKind

/-- A byte's signed value is its two's complement value (00_scope.md R7). -/
theorem Claims.signed_eq_toInt (v : Byte) : signed v = v.toInt := by
  rw [signed, BitVec.toInt_eq_toNat_cond]
  split <;> split <;> omega

namespace Machine

/-! #### Cycles (70_reset_and_hazards.md R281) -/

theorem branchTaken_of_kind_ne (s : State) {n : Mnemonic} (h : n.kind ≠ .branch) : branchTaken s n = false := by
  cases n <;> simp [Mnemonic.kind, branchTaken] at h ⊢

set_option maxRecDepth 4000 in
/-- The base count of every branch is 2. -/
theorem descriptors_branch_baseCycles : ∀ d ∈ descriptors, d.mnemonic.kind = .branch → d.baseCycles = 2 := by
  decide

section Cycles

variable {i : Instr} (s : State)

/-- The count of an instruction that is no branch. -/
theorem cycles_of_kind_ne (h : i.mnemonic.kind ≠ .branch) :
    cycles i s = i.descriptor.baseCycles + ((resolve i s).pageCrossed && chargesPageCross i).toNat := by
  simp [cycles, branchTaken_of_kind_ne s h]

/-- The count of a branch: one more when it is taken, and one more when it is taken to another page. -/
theorem cycles_branch {d : Byte} (h : i.mnemonic.kind = .branch) (hd : i.operand = .relative d) :
    cycles i s = if branchTaken s i.mnemonic then
      (if hi8 (branchTarget s.pc d) ≠ hi8 s.pc then 4 else 3) else 2 := by
  have hbase : i.descriptor.baseCycles = 2 := descriptors_branch_baseCycles _ i.descriptor_mem_descriptors h
  have hcharge : chargesPageCross i = false := by simp [chargesPageCross, h]
  cases ht : branchTaken s i.mnemonic with
  | false => simp [cycles, hbase, hcharge, ht]
  | true =>
    simp only [cycles, hbase, hcharge, ht, resolve, hd, operandPageCrossed]
    by_cases hp : hi8 (branchTarget s.pc d) = hi8 s.pc
    · simp [hp]
    · simp [hp, bne_iff_ne.2 hp]

end Cycles

/-! #### The target of a branch (41_addressing_modes.md R132) -/

/-- The sign-extended displacement as a number modulo 0x10000 (00_scope.md R7). -/
theorem sext16_toNat (d : Byte) : ((sext16 d).toNat : Int) = signed d % 0x10000 := by
  have hd := d.isLt
  rw [sext16, BitVec.toNat_signExtend, BitVec.toNat_setWidth, BitVec.msb_eq_decide, signed]
  simp only [decide_eq_true_eq]
  split <;> split <;> omega

/-- The target of a branch as a number (30_encoding.md R84). -/
theorem branchTarget_toNat (pc : Addr) (d : Byte) :
    (branchTarget pc d).toNat = ((pc.toNat + 2 + signed d) % 0x10000).toNat := by
  have hs := sext16_toNat d
  rw [branchTarget, BitVec.toNat_add, BitVec.toNat_add]
  have h2 : (2 : Addr).toNat = 2 := rfl
  omega

end Machine

/-- Settles O20: the event is that of the fetched instruction (`observe_legal`), and the operand of an instruction is
one that its access kind may have (`Instr.kind_mem_kinds`). -/
theorem observerEventOfARetiredStep : Obligations.ObserverEventOfARetiredStep := by
  refine ⟨fun s form hr hf => ⟨_, observe_legal hr hf, rfl⟩,
    fun i s => ⟨fun h => ?value, fun h => ?address, fun h hacc => ?rmw, fun h => ?branch, fun h => ?none⟩⟩
  case value =>
    obtain ⟨v, ho⟩ | ⟨o, ho⟩ := Instr.operand_of_value h <;>
      exact ⟨_, by rw [ho]; rfl, by rw [observedOperand, h, ho]⟩
  case address =>
    obtain ⟨o, ho⟩ | ⟨w, ho⟩ := Instr.operand_of_address h <;>
      exact ⟨_, by rw [ho]; rfl, by rw [observedOperand, h, ho]⟩
  case rmw =>
    obtain ho | ⟨o, ho⟩ := Instr.operand_of_rmw h
    · exact absurd (by rw [← i.operand_mode, ho]; rfl) hacc
    · exact ⟨_, by rw [ho]; rfl, by rw [observedOperand, h, ho]⟩
  case branch =>
    obtain ⟨d, ho⟩ := Instr.operand_of_branch h
    exact ⟨d, ho, by rw [observedOperand, h, ho, signed_eq_toInt]⟩
  case none =>
    obtain ho | ho := Instr.operand_of_imp_or_acc h <;> rw [observedOperand, ho]

/-- Settles O21: an instruction that is no branch adds the page crossing that is charged (`cycles_of_kind_ne`), a branch
its taken and crossed ones (`cycles_branch`). -/
theorem cyclesAddTheExtraOnesOfTheRule : Obligations.CyclesAddTheExtraOnesOfTheRule := by
  refine fun i s => ⟨fun h hmode => ?charged, fun h hx hy hindy => ?direct, fun h => ?branch, fun hv hb => ?none⟩
  case charged =>
    have hcharge : chargesPageCross i = true := by simpa [chargesPageCross, h, or_assoc] using hmode
    rw [cycles_of_kind_ne s (by simp [h]), hcharge, Bool.and_true]
    cases (resolve i s).pageCrossed <;> rfl
  case direct =>
    have hcharge : chargesPageCross i = false := by simp [chargesPageCross, hx, hy, hindy]
    rw [cycles_of_kind_ne s (by simp [h]), hcharge, Bool.and_false]
    rfl
  case branch =>
    obtain ⟨d, hd⟩ := Instr.operand_of_branch h
    exact ⟨d, hd, descriptors_branch_baseCycles _ i.descriptor_mem_descriptors h, cycles_branch s h hd⟩
  case none =>
    have hcharge : chargesPageCross i = false := by simp [chargesPageCross, hv]
    rw [cycles_of_kind_ne s hb, hcharge, Bool.and_false]
    rfl

/-- Settles O23: the resolver's equations, with the sums as numbers (`add_zeroPage_toNat`, `branchTarget_toNat`). -/
theorem pointerModesReadTheirPointer : Obligations.PointerModesReadTheirPointer := by
  refine fun s => ⟨fun b => ⟨rfl, rfl, fun _ => rfl⟩,
    fun b => ⟨add_zeroPage_toNat _ s.y, rfl, fun _ => decide_not.symm⟩, fun w => ⟨rfl, rfl, fun _ => rfl⟩,
    fun d => ⟨rfl, branchTarget_toNat s.pc d⟩, fun d k => ?crossed⟩
  case crossed => exact congrArg (k && ·) decide_not.symm

end Sys2Proof

/-! ### Runs and their events (20_memory.md R61, R64, 47_flag_system.md R227, 60_exceptions.md R255) -/

namespace Sys2Proof

open Sys2Proof.Machine Sys2Proof.Claims

namespace Machine

/-! #### The step behind an instruction -/

section NextFetch

variable {i j : Instr} {s t : State} {rest : List Byte}

/-- Under `per_load` the next step fetches from memory as the instruction left it. -/
theorem step_after_exec_perLoad (e : exec i s = .next t) (hr : t.engine = .running)
    (hload : t.cfg.rndRefresh = .perLoad)
    (h : decode [memoryAfter i s t.pc, memoryAfter i s (t.pc + 1), memoryAfter i s (t.pc + 2)] = .ok j rest) :
    step t = exec j t := by
  have hs : t.refreshRandom = t := t.refreshRandom_perLoad hload
  simp only [← exec_read e] at h
  rw [step_of_decode hr (by rw [hs]; exact h), hs]

/-- Under `per_step` it does so for the opcode byte, and for the operand bytes after the refresh of 0x00FE. -/
theorem step_after_exec_perStep {fetched : Addr → Byte} (e : exec i s = .next t) (hr : t.engine = .running)
    (hstep : t.cfg.rndRefresh = .perStep)
    (hfetched : ∀ c, fetched c = if c = 0x00FE then Config.draw t.draws else memoryAfter i s c)
    (h : decode [memoryAfter i s t.pc, fetched (t.pc + 1), fetched (t.pc + 2)] = .ok j rest) :
    step t = exec j t.refreshRandom := by
  have hread : ∀ c, t.refreshRandom.read c = fetched c := fun c => by
    rw [t.refreshRandom_read, hfetched, exec_read e]
    simp [hstep]
  rw [← exec_read e, ← hread, ← hread] at h
  exact step_of_decode hr h

end NextFetch

/-! #### NOP -/

theorem opcodeForm_nop : opcodeForm 0xEA = some (.f1 .nop) :=
  findForm_of_mem opcodeTable_fst_nodup (List.mem_of_getElem? (i := Instr.nop.ctorIdx) rfl)

theorem eq_nop_of_mnemonic {i : Instr} (h : i.mnemonic = .nop) : i = .nop := by
  have hlisted : (i.opcode, i.mode) ∈ [(0xEA, Mode.imp)] := (hasEncodings [.nop] .nop List.mem_cons_self i).1 h
  have hop : i.opcode = 0xEA := congrArg Prod.fst (List.mem_singleton.1 hlisted)
  obtain ⟨form, b1, b2, hf, rfl⟩ := i.eq_build
  rw [hop, opcodeForm_nop] at hf
  cases hf
  rfl

theorem decode_nop_iff {bytes rest : List Byte} : decode bytes = .ok .nop rest ↔ bytes = 0xEA :: rest := by
  constructor
  · intro h
    exact (decodedBytesAreTheEncoding bytes .nop rest h).1
  · rintro rfl
    exact decode_operandBytes opcodeForm_nop 0 0 rest

section NopStep

variable {s : State} (hr : s.engine = .running) (hop : s.read s.pc = 0xEA)
include hr hop

theorem step_nop : step s = .next { s.refreshRandom with pc := s.pc + 1 } := by
  have hf : opcodeForm (s.read s.pc) = some (.f1 .nop) := hop ▸ opcodeForm_nop
  rw [step_legal hr hf, ← s.refreshRandom_pc]
  exact (exec_means .nop s.refreshRandom).2

theorem observe_nop : observe s = some ⟨s.pc, 0xEA, .none⟩ := by
  have hf : opcodeForm (s.read s.pc) = some (.f1 .nop) := hop ▸ opcodeForm_nop
  rw [observe_legal hr hf, hop]
  rfl

end NopStep

/-! #### The host at the events -/

/-- The frame of a change of memory alone, which leaves PC too. -/
theorem frame_of_mem {s t : State} {m : Memory} {cells : List Addr} (h : t = { s with mem := m })
    (hcells : ∀ c, c ∉ cells → t.read c = s.read c) : Frame [] [] cells s t ∧ t.pc = s.pc := by
  subst h
  exact ⟨⟨⟨fun q _ => by cases q <;> rfl, fun _ _ => rfl, hcells, rfl, rfl⟩, rfl⟩, rfl⟩

theorem hostActions_keys_read (keys : List Byte) (s : State) :
    (hostActions (keys.map .writeKey) s).read 0x00FF = keys.getLast?.getD (s.read 0x00FF) := by
  induction keys generalizing s with
  | nil => rfl
  | cons key rest ih =>
    have hkey : (hostKeyWrite key s).read 0x00FF = key := s.read_write_same 0x00FF key
    calc (hostActions ((key :: rest).map .writeKey) s).read 0x00FF
      _ = rest.getLast?.getD ((hostKeyWrite key s).read 0x00FF) := ih (hostKeyWrite key s)
      _ = (key :: rest).getLast?.getD (s.read 0x00FF) := by rw [hkey, List.getLast?_cons, Option.getD_some]

/-- The observer that acts at the first event and leaves the later ones to another. -/
def Observer.startingWith (actions : List HostAction) (obs : Observer) : Observer
  | 0, _, _ => actions
  | n + 1, event, t => obs n event t

theorem Observer.startingWith_after (actions : List HostAction) (obs : Observer) :
    (Observer.startingWith actions obs).after 1 = obs := by
  funext n
  rw [Observer.after, Nat.add_comm]
  rfl

theorem Observer.startingWith_keysOnly {actions : List HostAction} {obs : Observer}
    (h : ∀ action ∈ actions, ∃ key, action = .writeKey key) (hobs : obs.keysOnly) :
    (Observer.startingWith actions obs).keysOnly := fun n event t =>
  match n with
  | 0 => h
  | n + 1 => hobs n event t

/-- What is safe for `n + 1` steps is safe for `n` steps after the first and the host's key writes there. -/
theorem SafeRun.after_step {n : Nat} {s t : State} (h : SafeRun (n + 1) s) (hs : step s = .next t)
    {actions : List HostAction} (hkeys : ∀ action ∈ actions, ∃ key, action = .writeKey key) :
    SafeRun n (hostActions actions t) := by
  intro obs hobs
  have hrun := h (.startingWith actions obs) (Observer.startingWith_keysOnly hkeys hobs)
  rw [runState_succ hs, Observer.startingWith_after] at hrun
  obtain ⟨hr, ⟨hf, rfl⟩ | ⟨form, hf, -⟩⟩ := step_cases hs
  · rw [observe_none (.inr hf), Observer.respond_none, runState_stopped (by simp)] at hrun
    exact absurd (s.raiseUnimplemented_engine _) (hrun _)
  · rwa [observe_legal hr hf] at hrun

end Machine

/-- Settles O50: NOP's handler is the advance alone; its step is that of the one byte 0xEA (`step_nop`), with its event
(`observe_nop`). -/
theorem nopOnlyAdvancesPc : Obligations.NopOnlyAdvancesPc := by
  refine ⟨fun s => (exec_means .nop s).2, fun i => ⟨eq_nop_of_mnemonic, fun h => h ▸ rfl⟩,
    fun _ _ => decode_nop_iff, fun s hr hop => ⟨observe_nop hr hop, _, step_nop hr hop, rfl, fun n obs => ?_⟩⟩
  rw [runState_succ (step_nop hr hop), observe_nop hr hop, Observer.respond_some]

/-- Settles O55: memory after an instruction is what it stored and what was there (`exec_read`); the next step fetches
from it (`step_after_exec_perLoad`, `step_after_exec_perStep`), and a step runs what was fetched before its stores
(`step_of_decode`). -/
theorem storesAreSeenByTheNextFetch : Obligations.StoresAreSeenByTheNextFetch := by
  refine ⟨fun i s t => exec_read, fun i j s t rest => step_after_exec_perLoad,
    fun i j s t rest fetched => step_after_exec_perStep, fun i s t e hr h => ?illegal, fun i s t o e => ?operand,
    fun i s t w e => ⟨_, rfl, exec_read e w, rfl⟩, fun s i rest hr h => ?own⟩
  case illegal =>
    rw [← exec_read e] at h ⊢
    exact step_illegal hr (mem_illegalBytes_iff.1 h)
  case operand => rw [← exec_read e]; rfl
  case own =>
    obtain ⟨t, e, -⟩ := exec_changesOnlyItsOwn i s.refreshRandom
    exact ⟨t, (step_of_decode hr h).trans e, e, exec_read e⟩

/-- Settles O56: one step of a run (`runState_succ`) with the observer's answer to its event, key writes being writes to
one cell (`hostActions_keys`), and an observer that adds key writes at the first event (`SafeRun.after_step`). -/
theorem theHostActsAtEachEventOfARun : Obligations.TheHostActsAtEachEventOfARun := by
  refine ⟨fun n obs s form hr hf => ?event, fun n obs s hr hf => ⟨observe_none (.inr hf), ?fault⟩,
    fun keys s t ht => ?keys, fun n obs s t event origin bytes hs hev hobs => ?load,
    fun n s t h hs => ⟨h.after_step hs (actions := []) (by simp),
      fun key => h.after_step hs (actions := [.writeKey key]) (by simp)⟩⟩
  case event =>
    obtain ⟨t, hs⟩ := step_running hr
    refine ⟨_, t, observe_legal hr hf, hs, ?_⟩
    rw [runState_succ hs, observe_legal hr hf, Observer.respond_some]
  case fault =>
    rw [runState_succ (step_illegal hr hf), observe_none (.inr hf), Observer.respond_none, runState_stopped (by simp)]
    rfl
  case keys =>
    obtain ⟨heq, hcells⟩ := hostActions_keys (actions := keys.map .writeKey) (by simp) s
    subst ht
    obtain ⟨hframe, hpc⟩ := frame_of_mem (cells := [0x00FF]) heq fun c hc => hcells c (List.ne_of_not_mem_cons hc)
    exact ⟨hostActions_keys_read keys s, hframe, hpc, heq⟩
  case load =>
    rw [runState_succ hs, hev, Observer.respond_some, hobs]
    rfl

end Sys2Proof

/-! ### Noninterference (10_state.md R29, R31, 60_exceptions.md R255): what an instruction makes of two states that are
alike -/

namespace Sys2Proof

open Sys2Proof.Machine Sys2Proof.Claims

namespace Machine

/-- Two states that agree on everything but the named flags and their memories, which are in the relation `Q`. -/
def Alike (flags : List Flag) (Q : Memory → Memory → Prop) (s s' : State) : Prop :=
  s' = { s with p := s'.p, mem := s'.mem } ∧ (∀ f, f ∉ flags → s'.flag f = s.flag f) ∧ Q s.mem s'.mem

/-- A relation of memories that equal writes keep. -/
def KeptByWrites (Q : Memory → Memory → Prop) : Prop :=
  ∀ m m' c v, Q m m' → Q (m.write c v) (m'.write c v)

section Alike

variable {flags : List Flag} {Q : Memory → Memory → Prop} {s s' : State}

theorem Alike.eq_with (h : Alike flags Q s s') : ∃ p' m', s' = { s with p := p', mem := m' } :=
  ⟨_, _, h.1⟩

theorem Alike.flag_eq (h : Alike flags Q s s') {f : Flag} (hf : f ∉ flags) : s'.flag f = s.flag f :=
  h.2.1 f hf

theorem Alike.mem_related (h : Alike flags Q s s') : Q s.mem s'.mem :=
  h.2.2

/-! #### Equal updates of alike states -/

theorem Alike.withReg (h : Alike flags Q s s') (r : Reg) (v : Byte) :
    Alike flags Q (withReg s r v) (withReg s' r v) := by
  obtain ⟨p', m', rfl⟩ := h.eq_with
  obtain ⟨-, hf, hm⟩ := h
  cases r <;> exact ⟨rfl, hf, hm⟩

theorem Alike.jump (h : Alike flags Q s s') (w : Addr) : Alike flags Q (s.jump w) (s'.jump w) := by
  obtain ⟨p', m', rfl⟩ := h.eq_with
  obtain ⟨-, hf, hm⟩ := h
  exact ⟨rfl, hf, hm⟩

theorem Alike.advance (h : Alike flags Q s s') (n : Nat) : Alike flags Q (s.advance n) (s'.advance n) := by
  obtain ⟨p', m', rfl⟩ := h.eq_with
  exact h.jump _

theorem Alike.halt (h : Alike flags Q s s') :
    Alike flags Q { s with engine := .halted } { s' with engine := .halted } := by
  obtain ⟨p', m', rfl⟩ := h.eq_with
  obtain ⟨-, hf, hm⟩ := h
  exact ⟨rfl, hf, hm⟩

theorem Alike.setFlag (h : Alike flags Q s s') (f : Flag) (b : Bool) :
    Alike flags Q (s.setFlag f b) (s'.setFlag f b) := by
  obtain ⟨p', m', rfl⟩ := h.eq_with
  obtain ⟨-, hf, hm⟩ := h
  refine ⟨rfl, fun g hg => ?_, hm⟩
  rw [State.setFlag_flag, State.setFlag_flag, hf g hg]

theorem Alike.setZN (h : Alike flags Q s s') (v : Byte) : Alike flags Q (s.setZN v) (s'.setZN v) :=
  (h.setFlag .Z _).setFlag .N _

theorem Alike.loadStatus (h : Alike flags Q s s') (v : Byte) :
    Alike flags Q { s with p := loadedStatus v s.p } { s' with p := loadedStatus v s'.p } := by
  obtain ⟨p', m', rfl⟩ := h.eq_with
  obtain ⟨-, hf, hm⟩ := h
  refine ⟨rfl, fun g hg => ?_, hm⟩
  have hg' : getFlag p' g = getFlag s.p g := hf g hg
  rw [State.flag, State.flag, getFlag_loadedStatus, getFlag_loadedStatus, hg']

variable (hQ : KeptByWrites Q)
include hQ

theorem Alike.write (h : Alike flags Q s s') (c : Addr) (v : Byte) : Alike flags Q (s.write c v) (s'.write c v) := by
  obtain ⟨p', m', rfl⟩ := h.eq_with
  obtain ⟨-, hf, hm⟩ := h
  exact ⟨rfl, hf, hQ _ _ c v hm⟩

theorem Alike.push (h : Alike flags Q s s') (b : Byte) : Alike flags Q (s.push b) (s'.push b) := by
  obtain ⟨p', m', rfl⟩ := h.eq_with
  exact (h.write hQ (stackCell s.sp) b).withReg .S (s.sp - 1)

theorem Alike.push16 (h : Alike flags Q s s') (w : Addr) : Alike flags Q (s.push16 w) (s'.push16 w) :=
  (h.push hQ (hi8 w)).push hQ (lo8 w)

end Alike

/-! #### The cells an instruction reads -/

section ReadCells

variable {i : Instr} {s s' : State}

theorem pointerCells_subset_readCells (i : Instr) (s : State) : pointerCells s i.operand ⊆ readCells i s :=
  List.subset_append_left _ _

/-- A `value` or read-modify-write handler reads the cell at its effective address (41_addressing_modes.md R134). -/
theorem address_mem_readCells {ea : Addr} (hk : i.mnemonic.kind = .value ∨ i.mnemonic.kind = .rmw)
    (hea : operandAddress s i.operand = some ea) : ea ∈ readCells i s := by
  refine List.mem_append_right _ ?_
  cases hn : i.mnemonic <;> simp_all [Mnemonic.kind]

/-- Two states with the same index registers, PC and parameters resolve an operand to one address when they hold the
same pointer. -/
theorem effectiveAddress_eq {p' : Byte} {m' : Memory} {o : MemOperand} (hs : s' = { s with p := p', mem := m' })
    (hcells : ∀ c ∈ pointerCells s (.mem o), s'.read c = s.read c) : effectiveAddress s' o = effectiveAddress s o := by
  subst hs
  cases o with
  | zp _ | zpx _ | zpy _ | abs _ | absx _ | absy _ => rfl
  | indx b => exact congrArg₂ word16 (hcells _ (.tail _ (.head _))) (hcells _ (.head _))
  | indy b =>
    exact congrArg (· + zeroPage s.y)
      (congrArg₂ word16 (hcells _ (.tail _ (.head _))) (hcells _ (.head _)))

theorem operandAddress_eq {p' : Byte} {m' : Memory} {o : Operand} (hs : s' = { s with p := p', mem := m' })
    (hcells : ∀ c ∈ pointerCells s o, s'.read c = s.read c) : operandAddress s' o = operandAddress s o := by
  cases o with
  | implied | accumulator | immediate _ => rfl
  | mem o => exact congrArg some (effectiveAddress_eq hs hcells)
  | indirect w =>
    subst hs
    exact congrArg some (congrArg₂ word16 (hcells _ (.tail _ (.head _))) (hcells _ (.head _)))
  | relative d =>
    subst hs
    rfl

/-- Two states in which an instruction reads the same bytes give it the same operand. -/
theorem operandValue_eq {p' : Byte} {m' : Memory} (hs : s' = { s with p := p', mem := m' })
    (hk : i.mnemonic.kind = .value) (hcells : ∀ c ∈ readCells i s, s'.read c = s.read c) :
    operandValue s' i.operand = operandValue s i.operand := by
  have haddress := operandAddress_eq hs fun c hc => hcells c (pointerCells_subset_readCells i s hc)
  obtain ⟨v, ho⟩ | ⟨o, ho⟩ := Instr.operand_of_value hk
  · rw [ho]
    rfl
  · have hread := hcells _ (address_mem_readCells (.inl hk) (by rw [ho]; rfl))
    rw [ho] at haddress ⊢
    rw [operandValue, operandValue, Option.some.inj haddress, hread]

end ReadCells

/-! #### Equal handlers -/

/-- The instruction leads from both states to two that are alike. -/
def AlikeAfter (flags : List Flag) (Q : Memory → Memory → Prop) (i : Instr) (s s' : State) : Prop :=
  ∃ t t', exec i s = .next t ∧ exec i s' = .next t' ∧ Alike flags Q t t'

section Handlers

variable {flags : List Flag} {Q : Memory → Memory → Prop} {i : Instr} {s s' : State}

theorem HandlesValue.alikeAfter {h : Byte → State → State} (hi : HandlesValue h i s) (hi' : HandlesValue h i s')
    (hv : operandValue s' i.operand = operandValue s i.operand) (hh : ∀ m, Alike flags Q (h m s) (h m s')) :
    AlikeAfter flags Q i s s' := by
  obtain ⟨m, hm, e⟩ := hi
  exact ⟨_, _, e, hi'.exec_eq (hv.trans hm), (hh m).advance _⟩

theorem HandlesImplied.alikeAfter {h : State → State} (hi : HandlesImplied h i s) (hi' : HandlesImplied h i s')
    (hh : Alike flags Q (h s) (h s')) : AlikeAfter flags Q i s s' :=
  ⟨_, _, hi.2, hi'.2, hh.advance _⟩

theorem StoresByte.alikeAfter (hQ : KeptByWrites Q) (h : Alike flags Q s s') {v : Byte} (hi : StoresByte v i s)
    (hi' : StoresByte v i s') (ha : operandAddress s' i.operand = operandAddress s i.operand) :
    AlikeAfter flags Q i s s' := by
  obtain ⟨ea, hea, e⟩ := hi
  obtain ⟨ea', hea', e'⟩ := hi'
  obtain rfl : ea' = ea := Option.some.inj (hea'.symm.trans (ha.trans hea))
  exact ⟨_, _, e, e', (h.write hQ ea' v).advance _⟩

theorem ModifiesOperand.alikeAfter (hQ : KeptByWrites Q) (h : Alike flags Q s s') {f : Byte → State → Modified}
    (hi : ModifiesOperand f i s) (hi' : ModifiesOperand f i s')
    (ha : operandAddress s' i.operand = operandAddress s i.operand)
    (hread : ∀ ea, operandAddress s i.operand = some ea → s'.read ea = s.read ea)
    (hresult : ∀ v, (f v s').result = (f v s).result) (hstate : ∀ v, Alike flags Q (f v s).state (f v s').state) :
    AlikeAfter flags Q i s s' := by
  obtain ⟨p', m', rfl⟩ := h.eq_with
  obtain ⟨hacc, -, e⟩ | ⟨hmem, ea, hea, e⟩ := hi <;> obtain ⟨hacc', -, e'⟩ | ⟨hmem', ea', hea', e'⟩ := hi'
  · rw [hresult] at e'
    exact ⟨_, _, e, e', ((hstate s.a).withReg .A _).advance _⟩
  · exact absurd hacc hmem'
  · exact absurd hacc' hmem
  · obtain rfl : ea' = ea := Option.some.inj (hea'.symm.trans (ha.trans hea))
    rw [hread _ hea, hresult] at e'
    exact ⟨_, _, e, e', ((hstate _).write hQ ea' _).advance _⟩

theorem BranchesOn.alikeAfter (h : Alike flags Q s s') {cond : State → Bool} (hi : BranchesOn cond i s)
    (hi' : BranchesOn cond i s') (hcond : cond s' = cond s) : AlikeAfter flags Q i s s' := by
  obtain ⟨p', m', rfl⟩ := h.eq_with
  obtain ⟨d, hd, e⟩ := hi
  obtain ⟨d', hd', e'⟩ := hi'
  obtain rfl : d' = d := Operand.relative.inj (hd'.symm.trans hd)
  rw [hcond] at e'
  refine ⟨_, _, e, e', ?_⟩
  split
  · exact h.jump _
  · exact h.advance 2

theorem addWithCarry_alike (h : Alike flags Q s s') (hC : s'.flag .C = s.flag .C) (m : Byte) :
    Alike flags Q (addWithCarry m s) (addWithCarry m s') := by
  obtain ⟨p', m', rfl⟩ := h.eq_with
  rw [addWithCarry_eq, addWithCarry_eq, hC]
  exact (((h.setFlag .C _).setFlag .V _).withReg .A _).setZN _

theorem compareWith_alike (h : Alike flags Q s s') (r m : Byte) :
    Alike flags Q (compareWith r m s) (compareWith r m s') :=
  ((h.setFlag .C _).setFlag .Z _).setFlag .N _

theorem shifted_alike (h : Alike flags Q s s') (r : Shifted) :
    Alike flags Q (shifted r s).state (shifted r s').state :=
  (h.setFlag .C _).setZN _

/-- A rotate takes the old carry in (45_logic_shift.md R191, R192). -/
theorem rotated_alike (h : Alike flags Q s s') (hC : s'.flag .C = s.flag .C) (rotate : Bool → Byte → Shifted)
    (v : Byte) : (shifted (rotate (s'.flag .C) v) s').result = (shifted (rotate (s.flag .C) v) s).result ∧
    Alike flags Q (shifted (rotate (s.flag .C) v) s).state (shifted (rotate (s'.flag .C) v) s').state := by
  rw [hC]
  exact ⟨rfl, shifted_alike h _⟩

theorem popped16_alike (h : Alike flags Q s s') : Alike flags Q s.popped16 s'.popped16 := by
  obtain ⟨p', m', rfl⟩ := h.eq_with
  exact h.withReg .S (s.sp + 1 + 1)

theorem pullP_alike (h : Alike flags Q s s') (hpulled : s'.pulled = s.pulled) :
    Alike flags Q (pullP s) (pullP s') := by
  rw [pullP, pullP, hpulled]
  obtain ⟨p', m', rfl⟩ := h.eq_with
  exact (h.loadStatus s.pulled).withReg .S (s.sp + 1)

/-- The trap return is PLP's pull of the status and then a pull of PC (47_flag_system.md R233). -/
theorem trapReturn_eq (s : State) :
    s.trapReturn =
      (pullP s).popped16.jump (word16 (s.read (stackCell (s.sp + 3))) (s.read (stackCell (s.sp + 2)))) := by
  rw [← s.trapReturn_pc_eq]
  rfl

theorem breakEntry_alike (hQ : KeptByWrites Q) (h : Alike flags Q s s') (hp : s'.p = s.p) :
    Alike flags Q s.breakEntry s'.breakEntry := by
  obtain ⟨p', m', rfl⟩ := h.eq_with
  obtain rfl : p' = s.p := hp
  exact (((h.setFlag .B true).push16 hQ _).push hQ _).halt

end Handlers

/-! #### Every instruction -/

/-- From two alike states in which an instruction reads the same bytes it leads to two alike states, when the states
agree on every flag but I and D (10_state.md R29) and, for PHP and BRK, on the whole of P. -/
theorem exec_alike {flags : List Flag} {Q : Memory → Memory → Prop} {i : Instr} {s s' : State} (hQ : KeptByWrites Q)
    (h : Alike flags Q s s') (hinert : ∀ f ∈ flags, f = .I ∨ f = .D)
    (hcells : ∀ c ∈ readCells i s, s'.read c = s.read c)
    (hp : i.mnemonic = .php ∨ i.mnemonic = .brk → s'.p = s.p) : AlikeAfter flags Q i s s' := by
  have hi : Means i.mnemonic i s := exec_means i s
  have hi' : Means i.mnemonic i s' := exec_means i s'
  have hused : ∀ f, f ≠ .I → f ≠ .D → s'.flag f = s.flag f := fun f hI hD =>
    h.flag_eq fun hf => (hinert f hf).elim hI hD
  obtain ⟨p', m', rfl⟩ := h.eq_with
  have haddress := operandAddress_eq rfl fun c hc => hcells c (pointerCells_subset_readCells i s hc)
  have hvalue := operandValue_eq (i := i) rfl (hcells := hcells)
  have hread := fun ea hk => hcells ea ∘ address_mem_readCells (i := i) (ea := ea) hk
  cases hn : i.mnemonic <;> rw [hn] at hi hi' hp <;> simp only [hn, Mnemonic.kind] at hvalue hread
  case lda | and | ora | eor =>
    exact HandlesValue.alikeAfter hi hi' (hvalue trivial) fun _ => (h.withReg .A _).setZN _
  case ldx => exact HandlesValue.alikeAfter hi hi' (hvalue trivial) fun _ => (h.withReg .X _).setZN _
  case ldy => exact HandlesValue.alikeAfter hi hi' (hvalue trivial) fun _ => (h.withReg .Y _).setZN _
  case adc | sbc =>
    exact HandlesValue.alikeAfter hi hi' (hvalue trivial) fun _ => addWithCarry_alike h (hused .C nofun nofun) _
  case cmp | cpx | cpy => exact HandlesValue.alikeAfter hi hi' (hvalue trivial) fun _ => compareWith_alike h _ _
  case bit =>
    exact HandlesValue.alikeAfter hi hi' (hvalue trivial) fun _ => ((h.setFlag .Z _).setFlag .N _).setFlag .V _
  case sta | stx | sty => exact StoresByte.alikeAfter hQ h hi hi' haddress
  case inc | dec =>
    exact ModifiesOperand.alikeAfter hQ h hi.2 hi'.2 haddress (fun ea => hread ea (.inr trivial)) (fun _ => rfl)
      fun _ => h.setZN _
  case asl | lsr =>
    exact ModifiesOperand.alikeAfter hQ h hi hi' haddress (fun ea => hread ea (.inr trivial)) (fun _ => rfl)
      fun _ => shifted_alike h _
  case rol | ror =>
    have hrot := rotated_alike h (hused .C nofun nofun)
    exact ModifiesOperand.alikeAfter hQ h hi hi' haddress (fun ea => hread ea (.inr trivial))
      (fun v => (hrot _ v).1) fun v => (hrot _ v).2
  case txa | tya => exact HandlesImplied.alikeAfter hi hi' ((h.withReg .A _).setZN _)
  case tax | tsx | inx | dex => exact HandlesImplied.alikeAfter hi hi' ((h.withReg .X _).setZN _)
  case tay | iny | dey => exact HandlesImplied.alikeAfter hi hi' ((h.withReg .Y _).setZN _)
  case txs => exact HandlesImplied.alikeAfter hi hi' (h.withReg .S _)
  case pha => exact HandlesImplied.alikeAfter hi hi' (h.push hQ _)
  case nop => exact HandlesImplied.alikeAfter hi hi' h
  case clc | sec | cli | sei | cld | sed | clv => exact ⟨_, _, hi.2, hi'.2, (h.setFlag _ _).advance _⟩
  case bcc => exact BranchesOn.alikeAfter h hi hi' (congrArg not (hused .C nofun nofun))
  case bcs => exact BranchesOn.alikeAfter h hi hi' (hused .C nofun nofun)
  case bne => exact BranchesOn.alikeAfter h hi hi' (congrArg not (hused .Z nofun nofun))
  case beq => exact BranchesOn.alikeAfter h hi hi' (hused .Z nofun nofun)
  case bpl => exact BranchesOn.alikeAfter h hi hi' (congrArg not (hused .N nofun nofun))
  case bmi => exact BranchesOn.alikeAfter h hi hi' (hused .N nofun nofun)
  case bvc => exact BranchesOn.alikeAfter h hi hi' (congrArg not (hused .V nofun nofun))
  case bvs => exact BranchesOn.alikeAfter h hi hi' (hused .V nofun nofun)
  case jmp =>
    obtain ⟨ea, hea, e⟩ := hi
    obtain ⟨ea', hea', e'⟩ := hi'
    obtain rfl : ea' = ea := Option.some.inj (hea'.symm.trans (haddress.trans hea))
    exact ⟨_, _, e, e', h.jump _⟩
  case jsr =>
    obtain ⟨w, rfl, e⟩ := hi
    exact ⟨_, _, e, exec_jsr _ w, (h.push16 hQ _).jump w⟩
  case pla =>
    have hpulled : State.pulled _ = s.pulled := hcells (stackCell (s.sp + 1)) (by simp [readCells, hn])
    refine HandlesImplied.alikeAfter hi hi' ?_
    rw [pullA_eq, pullA_eq, hpulled]
    exact ((h.withReg .A _).withReg .S _).setZN _
  case php =>
    obtain rfl : p' = s.p := hp (.inl rfl)
    exact HandlesImplied.alikeAfter hi hi' (h.push hQ (statusImage s.p))
  case plp =>
    have hpulled : State.pulled _ = s.pulled := hcells (stackCell (s.sp + 1)) (by simp [readCells, hn])
    exact HandlesImplied.alikeAfter hi hi' (pullP_alike h hpulled)
  case rts =>
    have hlo := hcells (stackCell (s.sp + 1)) (by simp [readCells, hn])
    have hhi := hcells (stackCell (s.sp + 2)) (by simp [readCells, hn])
    refine ⟨_, _, hi.2, hi'.2, ?_⟩
    rw [State.pulled16_eq, State.pulled16_eq, hlo, hhi]
    exact (popped16_alike h).jump _
  case rti =>
    have hpulled : State.pulled _ = s.pulled := hcells (stackCell (s.sp + 1)) (by simp [readCells, hn])
    have hlo := hcells (stackCell (s.sp + 2)) (by simp [readCells, hn])
    have hhi := hcells (stackCell (s.sp + 3)) (by simp [readCells, hn])
    refine ⟨_, _, hi.2, hi'.2, ?_⟩
    rw [trapReturn_eq, trapReturn_eq, hlo, hhi]
    exact (popped16_alike (pullP_alike h hpulled)).jump _
  case brk => exact ⟨_, _, hi.2, hi'.2, breakEntry_alike hQ h (hp (.inr rfl))⟩

end Machine

end Sys2Proof

/-! ### What I and D, and what the key cell, do not reach (10_state.md R29, R31, 60_exceptions.md R255) -/

namespace Sys2Proof

open Sys2Proof.Machine Sys2Proof.Claims

namespace Machine

/-- Two memories that read alike but at one cell. -/
def ReadAlikeBut (k : Addr) (m m' : Memory) : Prop := ∀ c, c ≠ k → m'.read c = m.read c

theorem readAlikeBut_keptByWrites (k : Addr) : KeptByWrites (ReadAlikeBut k) := by
  intro m m' c v h d hd
  rw [Memory.read_write, Memory.read_write, h d hd]

theorem eq_keptByWrites : KeptByWrites (· = ·) := fun _ _ c v h => congrArg (Memory.write · c v) h

section Alike

variable {s s' : State}

/-! #### The flags I and D -/

theorem agreeButInert_iff : AgreeButInert s s' ↔ Alike [.I, .D] (· = ·) s s' := by
  constructor
  · rintro ⟨hs, hf⟩
    obtain ⟨p', rfl⟩ : ∃ p', s' = { s with p := p' } := ⟨_, hs⟩
    exact ⟨rfl, fun f h => hf f (List.ne_of_not_mem_cons h) (List.ne_of_not_mem_cons (List.not_mem_of_not_mem_cons h)),
      rfl⟩
  · intro h
    obtain ⟨p', m', rfl⟩ := h.eq_with
    obtain ⟨-, hf, rfl⟩ := h
    exact ⟨rfl, fun f hI hD => hf f (by simp [hI, hD])⟩

/-- A push of any two bytes: the memories then differ at the cell pushed to, which is the one above the new S. -/
theorem Alike.push_any {flags : List Flag} (h : Alike flags (· = ·) s s') (b b' : Byte) :
    Alike flags (ReadAlikeBut (stackCell ((s.push b).sp + 1))) (s.push b) (s'.push b') := by
  have hsp : s.sp - 1 + 1 = s.sp := by bv_omega
  obtain ⟨p', m', rfl⟩ := h.eq_with
  obtain ⟨-, hf, hm⟩ := h
  obtain rfl : s.mem = m' := hm
  refine ⟨rfl, hf, fun c hc => ?_⟩
  rw [State.push_sp, hsp] at hc
  exact (Memory.read_write_ne s.mem b' hc).trans (Memory.read_write_ne s.mem b hc).symm

/-- PHP and BRK read I and D into the byte they push, which they push last (10_state.md R29). -/
theorem exec_alike_of_pushesStatus {i : Instr} {t t' : State} (hn : i.mnemonic = .php ∨ i.mnemonic = .brk)
    (h : Alike [.I, .D] (· = ·) s s') (e : exec i s = .next t) (e' : exec i s' = .next t') :
    Alike [.I, .D] (ReadAlikeBut (stackCell (t.sp + 1))) t t' := by
  obtain hn | hn := hn
  · cases e.symm.trans (exec_means_of hn s).2
    cases e'.symm.trans (exec_means_of hn s').2
    exact (h.push_any (statusImage s.p) (statusImage s'.p)).advance i.length
  · cases e.symm.trans (exec_means_of hn s).2
    cases e'.symm.trans (exec_means_of hn s').2
    obtain ⟨p', m', rfl⟩ := h.eq_with
    exact (((h.setFlag .B true).push16 eq_keptByWrites (s.pc + brkOffset s.cfg.brkPcPushOffset)).push_any
      (statusImage (setFlag s.p .B true)) (statusImage (setFlag p' .B true))).halt

end Alike

end Machine

/-! #### The key cell 0x00FF -/

namespace Claims

section AgreeButKey

variable {s s' : State}

theorem AgreeButKey.eq_with (h : AgreeButKey s s') : ∃ m', s' = { s with mem := m' } :=
  ⟨_, h.1⟩

theorem AgreeButKey.p_eq (h : AgreeButKey s s') : s'.p = s.p := by
  rw [h.1]

theorem AgreeButKey.pc_eq (h : AgreeButKey s s') : s'.pc = s.pc := by
  rw [h.1]

theorem AgreeButKey.engine_eq (h : AgreeButKey s s') : s'.engine = s.engine := by
  rw [h.1]

theorem agreeButKey_iff : AgreeButKey s s' ↔ Alike [] (ReadAlikeBut 0x00FF) s s' := by
  constructor
  · intro h
    obtain ⟨m', rfl⟩ := h.eq_with
    exact ⟨rfl, fun _ _ => rfl, h.2⟩
  · intro h
    obtain ⟨p', m', rfl⟩ := h.eq_with
    obtain ⟨-, hf, hcells⟩ := h
    obtain rfl : p' = s.p := eq_of_getFlag_eq fun f => hf f List.not_mem_nil
    exact ⟨rfl, hcells⟩

theorem AgreeButKey.symm (h : AgreeButKey s s') : AgreeButKey s' s := by
  obtain ⟨m', rfl⟩ := h.eq_with
  exact ⟨rfl, fun c hc => (h.2 c hc).symm⟩

theorem AgreeButKey.trans {u : State} (h : AgreeButKey s s') (h' : AgreeButKey s' u) : AgreeButKey s u := by
  obtain ⟨m', rfl⟩ := h.eq_with
  obtain ⟨m'', rfl⟩ := h'.eq_with
  exact ⟨rfl, fun c hc => (h'.2 c hc).trans (h.2 c hc)⟩

/-- The refresh draws the same byte for both machines (log 15). -/
theorem AgreeButKey.refreshRandom (h : AgreeButKey s s') : AgreeButKey s.refreshRandom s'.refreshRandom := by
  obtain ⟨m', rfl⟩ := h.eq_with
  refine ⟨?_, fun c hc => ?_⟩
  · unfold State.refreshRandom
    cases s.cfg.rndRefresh <;> rfl
  · rw [State.refreshRandom_read, State.refreshRandom_read, h.2 c hc]

theorem AgreeButKey.raiseUnimplemented (h : AgreeButKey s s') (op : Byte) :
    AgreeButKey (s.raiseUnimplemented op) (s'.raiseUnimplemented op) := by
  obtain ⟨m', rfl⟩ := h.eq_with
  exact ⟨rfl, h.2⟩

end AgreeButKey

section ReadsNoKey

variable {s s' : State} {i : Instr} (h : AgreeButKey s s') (hkey : 0x00FF ∉ readCells i s)
include h hkey

theorem AgreeButKey.readCells_eq : ∀ c ∈ readCells i s, s'.read c = s.read c :=
  fun c hc => h.2 c (ne_of_mem_of_not_mem hc hkey)

/-- An instruction that reads nothing of the key cell does not learn it. -/
theorem AgreeButKey.exec : ∃ t t', exec i s = .next t ∧ exec i s' = .next t' ∧ AgreeButKey t t' := by
  obtain ⟨t, t', e, e', ht⟩ := exec_alike (i := i) (readAlikeBut_keptByWrites _) (agreeButKey_iff.1 h)
    (fun _ hf => absurd hf List.not_mem_nil) (h.readCells_eq hkey) fun _ => h.p_eq
  exact ⟨t, t', e, e', agreeButKey_iff.2 ht⟩

theorem AgreeButKey.observedOperand_eq : observedOperand i s' = observedOperand i s := by
  have hcells := h.readCells_eq hkey
  obtain ⟨m', rfl⟩ := h.eq_with
  have haddress := operandAddress_eq rfl fun c hc => hcells c (pointerCells_subset_readCells i s hc)
  cases ho : i.operand with
  | implied | accumulator | immediate _ | relative _ => simp only [observedOperand, ho]
  | indirect w =>
    rw [ho] at haddress
    simp only [observedOperand, ho]
    exact congrArg Observed.address (Option.some.inj haddress)
  | mem o =>
    have hread := fun hk => hcells _ (address_mem_readCells (.inl hk) (by rw [ho]; rfl))
    rw [ho] at haddress
    have hea := Option.some.inj haddress
    cases hk : i.mnemonic.kind with
    | value => simp only [observedOperand, ho, hk, hea, hread hk]
    | address | rmw | branch | none => simp only [observedOperand, ho, hk, hea]

end ReadsNoKey

/-! #### A step that does not read the key cell -/

/-- An instruction is built of the operand bytes of its format alone. -/
theorem build_eq_of_operandBytes_eq {form : Form} {b1 b2 b1' b2' : Byte}
    (h : form.operandBytes b1' b2' = form.operandBytes b1 b2) : form.build b1' b2' = form.build b1 b2 := by
  cases form <;> simp_all [Form.operandBytes, Form.length, Form.build]

/-- The addresses of the operand bytes of a format behind an opcode byte (30_encoding.md R80). -/
def operandCells (form : Form) (pc : Addr) : List Addr := [pc + 1, pc + 2].take (form.length - 1)

theorem operandBytes_read (form : Form) (s : State) (pc : Addr) :
    form.operandBytes (s.read (pc + 1)) (s.read (pc + 2)) = (operandCells form pc).map s.read := by
  rw [operandCells, List.map_take]
  rfl

theorem pc_mem_stepReads {s : State} (hr : s.engine = .running) : s.pc ∈ stepReads s := by
  simp [stepReads, hr]

theorem stepReads_legal {s : State} {form : Form} (hr : s.engine = .running)
    (hf : opcodeForm (s.read s.pc) = some form) :
    stepReads s = s.pc :: (operandCells form s.pc ++
      readCells (form.build (s.refreshRandom.read (s.pc + 1)) (s.refreshRandom.read (s.pc + 2))) s.refreshRandom) := by
  simp [stepReads, hr, State.fetch_some hf, build_length hf, operandCells]

/-- A step that reads nothing of the key cell does not learn it: its event and its next state do not depend on it. -/
theorem AgreeButKey.step {s s' t : State} (h : AgreeButKey s s') (hkey : 0x00FF ∉ stepReads s)
    (hs : step s = .next t) :
    observe s' = observe s ∧ ∃ t', Machine.step s' = .next t' ∧ AgreeButKey t t' := by
  obtain ⟨hr, hcases⟩ := step_cases hs
  have hr' : s'.engine = .running := h.engine_eq.trans hr
  have hop : s'.read s'.pc = s.read s.pc := by
    rw [h.pc_eq]
    exact h.2 s.pc (ne_of_mem_of_not_mem (pc_mem_stepReads hr) hkey)
  obtain ⟨hf, rfl⟩ | ⟨form, hf, e⟩ := hcases
  · have hf' : opcodeForm (s'.read s'.pc) = none := hop ▸ hf
    rw [observe_none (.inr hf), observe_none (.inr hf'), step_illegal hr' hf', hop]
    exact ⟨rfl, _, rfl, h.raiseUnimplemented _⟩
  · have hf' : opcodeForm (s'.read s'.pc) = some form := hop ▸ hf
    rw [stepReads_legal hr hf, List.mem_cons, List.mem_append, not_or, not_or] at hkey
    obtain ⟨-, hoperand, hexec⟩ := hkey
    have hu : AgreeButKey s.refreshRandom s'.refreshRandom := h.refreshRandom
    have hbuild : form.build (s'.refreshRandom.read (s'.pc + 1)) (s'.refreshRandom.read (s'.pc + 2)) =
        form.build (s.refreshRandom.read (s.pc + 1)) (s.refreshRandom.read (s.pc + 2)) := by
      refine build_eq_of_operandBytes_eq ?_
      rw [h.pc_eq, operandBytes_read, operandBytes_read]
      exact List.map_congr_left fun c hc => hu.2 c (ne_of_mem_of_not_mem hc hoperand)
    obtain ⟨t₁, t', e₁, e', ht⟩ := hu.exec hexec
    cases e.symm.trans e₁
    rw [observe_legal hr hf, observe_legal hr' hf', step_legal hr' hf', hbuild, hop, h.pc_eq,
      hu.observedOperand_eq hexec]
    exact ⟨rfl, t', e', ht⟩

/-! #### Runs under observers that write keys alone -/

theorem AgreeButKey.respond {obs obs' : Observer} {t t' : State} (h : AgreeButKey t t') (hobs : obs.keysOnly)
    (hobs' : obs'.keysOnly) (event : Option Event) :
    AgreeButKey (obs.respond event t) (obs'.respond event t') := by
  cases event with
  | none => exact h
  | some event =>
    have ht : AgreeButKey t (hostActions (obs 0 event t) t) := hostActions_keys (hobs 0 event t) t
    have ht' : AgreeButKey t' (hostActions (obs' 0 event t') t') := hostActions_keys (hobs' 0 event t') t'
    exact (ht.symm.trans h).trans ht'

theorem AgreeButKey.runState {n : Nat} {obs obs' : Observer} {s s' : State} (hobs : obs.keysOnly)
    (hobs' : obs'.keysOnly) (h : AgreeButKey s s')
    (hkey : ∀ k, k < n → 0x00FF ∉ stepReads (Machine.runState k obs s)) :
    AgreeButKey (Machine.runState n obs s) (Machine.runState n obs' s') := by
  induction n generalizing obs obs' s s' with
  | zero => exact h
  | succ n ih =>
    by_cases hr : s.engine = .running
    · obtain ⟨t, hs⟩ := step_running hr
      obtain ⟨hevent, t', hs', ht⟩ := h.step (hkey 0 (Nat.succ_pos n)) hs
      rw [runState_succ hs, runState_succ hs', hevent]
      refine ih (Observer.keysOnly_after hobs 1) (Observer.keysOnly_after hobs' 1) (ht.respond hobs hobs' _) ?_
      intro k hk
      rw [← runState_succ hs]
      exact hkey (k + 1) (Nat.succ_lt_succ hk)
    · rw [runState_stopped hr, runState_stopped (h.engine_eq ▸ hr)]
      exact h

end Claims

/-- Settles O54: alike states stay alike (`exec_alike`), I and D being flags that no handler reads; PHP and BRK push
them last (`exec_alike_of_pushesStatus`). -/
theorem interruptDisableAndDecimalAreInert : Obligations.InterruptDisableAndDecimalAreInert := by
  intro i s s' t t' h e e'
  have hs : Alike [.I, .D] (· = ·) s s' := agreeButInert_iff.1 h
  refine ⟨fun hphp hbrk => ?inert, fun hn => ?pushed⟩
  case inert =>
    obtain ⟨u, u', eu, eu', hu⟩ := exec_alike (i := i) eq_keptByWrites hs (by simp)
      (fun c _ => congrArg (Memory.read · c) hs.mem_related.symm) (fun hn => absurd hn (by simp [hphp, hbrk]))
    cases e.symm.trans eu
    cases e'.symm.trans eu'
    exact agreeButInert_iff.2 hu
  case pushed =>
    obtain ⟨ht, hf, hcells⟩ := exec_alike_of_pushesStatus hn hs e e'
    exact ⟨ht, fun f hI hD => hf f (by simp [hI, hD]), hcells⟩

/-- Settles O58: a step that does not read the key cell does not depend on it (`AgreeButKey.step`), and along a run of
such steps nothing but that cell ever differs (`AgreeButKey.runState`). -/
theorem keyWritesDoNotReachAProgramThatDoesNotReadThem :
    Obligations.KeyWritesDoNotReachAProgramThatDoesNotReadThem := by
  refine ⟨fun s s' t h hkey hs => h.step hkey hs, fun n obs obs' s s' hobs hobs' h hkey => ?_⟩
  have hrun : AgreeButKey (runState n obs s) (runState n obs' s') := h.runState hobs hobs' hkey
  exact ⟨hrun, congrArg runResult hrun.engine_eq⟩

end Sys2Proof
